-- ==== Sys2Proof/Word.lean ====
section
/-!
DEFINITION. The words of the KL16: bytes of the link, the 16-bit check and mask, the 32-bit counters.
Levels, drive codes, fades and delays are plain numbers (00_scope.md 'Domains and units').
-/
namespace Sys2Proof

/-- One byte of the serial link (R149). -/
abbrev Byte := BitVec 8

/-- A two-byte quantity the spec treats as bits: a channel mask, the frame check, a report number. -/
abbrev Half := BitVec 16

/-- A 32-bit counter or serial number (R49, R98). -/
abbrev Wide := BitVec 32

/-- A channel number 0 to 15 (00_scope.md 'Channels'). -/
abbrev ChannelNo := Fin 16

/-- A curve slot number 0 to 7 (R3). -/
abbrev SlotNo := Fin 8

/-- A cue record, by its place in the table: place i holds cue number i + 1 (R22). -/
abbrev CueIdx := Fin 32

/-- A generation of a record kind, by its place: place i is generation i + 1 (R95). -/
abbrev GenIdx := Fin 4

end Sys2Proof
end

