-- ==== Sys2Proof/Syntax.lean ====
section
/-!
DEFINITION. The commands of the KL16: one constructor for each row of spec/opcode_table.json, with the row's operands.

A request row is the event at which one whole request frame with a right check completes (R155, R161): it carries the frame's
sequence and its payload bytes, and the check is the one R151 computes. DEDUCED (log 1). The four STORE_LOAD rows with a
kind carry no payload, because the row fixes it: the one byte of the kind's code (R188, R190).
-/
namespace Sys2Proof

/-- The level of an input pin (00_scope.md 'Pins and electrical data'). -/
inductive PinLevel where
  | low
  | high
  deriving DecidableEq, Repr

/-- The reset conditions that begin before a reset base (R122, R123): the supply failing, or RESETN driven low. -/
inductive HoldCause where
  | power
  | pin
  deriving DecidableEq, Repr

/-- The outcome of a store program's read-back (R105): 'which of the two occurs is the array's, not the part's'. -/
inductive ReadBack where
  | good
  | bad
  deriving DecidableEq, Repr

/-- A command of the KL16, one constructor for each row of spec/opcode_table.json. -/
inductive Instr where
  -- the part and its link
  | hello (seq : Byte) (payload : List Byte)
  | status (seq : Byte) (payload : List Byte)
  | fetch (seq : Byte) (payload : List Byte)
  | restart (seq : Byte) (payload : List Byte)
  -- profiles
  | setProfile (seq : Byte) (payload : List Byte)
  | setCeiling (seq : Byte) (payload : List Byte)
  -- curves and channels
  | curveWrite (seq : Byte) (payload : List Byte)
  | curveRead (seq : Byte) (payload : List Byte)
  | bind (seq : Byte) (payload : List Byte)
  | trimSet (seq : Byte) (payload : List Byte)
  | trimSource (seq : Byte) (payload : List Byte)
  | channelRead (seq : Byte) (payload : List Byte)
  | setLevel (seq : Byte) (payload : List Byte)
  -- cues and instances
  | cueLoad (seq : Byte) (payload : List Byte)
  | cueRead (seq : Byte) (payload : List Byte)
  | cueClear (seq : Byte) (payload : List Byte)
  | cueGo (seq : Byte) (payload : List Byte)
  | cueArm (seq : Byte) (payload : List Byte)
  | cueDisarm (seq : Byte) (payload : List Byte)
  | cueStop (seq : Byte) (payload : List Byte)
  | cueStopAll (seq : Byte) (payload : List Byte)
  | activeRead (seq : Byte) (payload : List Byte)
  -- the retained store
  | storeStatus (seq : Byte) (payload : List Byte)
  | storeProgram (seq : Byte) (payload : List Byte)
  | storeLoadCurves (seq : Byte)
  | storeLoadTrims (seq : Byte)
  | storeLoadLabel (seq : Byte)
  | storeLoadStartup (seq : Byte)
  | storeLoadNoRecordKind (seq : Byte) (payload : List Byte)
  | labelSet (seq : Byte) (payload : List Byte)
  -- events of the Cue Engine, the Retained Store and the Start-up Loader
  | fadeClockExpiry
  | goFallingEdge
  | programCompletion (outcome : ReadBack)
  | loadCompletion
  -- resets and pins
  | resetCondition (cause : HoldCause)
  | resetBase (rate1 rate0 : PinLevel)
  | oeChange (level : PinLevel)
  -- the Link Port
  | byteReceived (byte : Byte)
  | framingError
  | interByteTimeout
  | transmissionEnd
  | linkReset
  | rxdFalls
  | rxdRises
  deriving DecidableEq, Repr

end Sys2Proof
end

