-- ==== Sys2Proof/Decode.lean ====
section
/-!
DEFINITION. The command a word of the opcode table spells. No row of spec/opcode_table.json gives bits (98_reader.md counts 0
rows with fixed bits and 0 with fields), so no word spells a command.
-/
namespace Sys2Proof

/-- The command that the table's bits spell: none, because no row gives bits. -/
def decodeTableWord (_nbits _w : Nat) : Option Instr := none

end Sys2Proof
end

