-- ==== Sys2Proof/Config.lean ====
section
/-!
DEFINITION. The intervals the spec fixes for the part, in microseconds of block time, and the sizes of its lists.
The spec leaves no value free (NOTES.md), so no opaque constant stands here.
-/
namespace Sys2Proof.Config

/-- The fade clock expires every 10 ms (R45). -/
def fadePeriod : Nat := 10000

/-- The GO debounce interval, 20 ms (R67). -/
def debounce : Nat := 20000

/-- The store program time, 48 ms (R104). -/
def programTime : Nat := 48000

/-- The link inter-byte timeout, 5 ms (R153). -/
def interByteTime : Nat := 5000

/-- The break time, 20 ms (R135, R162). -/
def breakTime : Nat := 20000

/-- The largest payload of a frame (R150). -/
def maxPayload : Nat := 240

/-- The most instances in the Active List (R35). -/
def maxActive : Nat := 4

/-- The most follow starts in the Follow List (R71). -/
def maxFollows : Nat := 4

/-- The most ordinary records in the Report Queue (R137). -/
def maxReports : Nat := 15

end Sys2Proof.Config
end

