-- ==== Sys2Proof/Machine/State.lean ====
section
/-!
DEFINITION. Everything the spec gives the KL16 to hold, as plain data, and the machine right after reset.
INVENTORY.md lists each field with the rule that names it.
-/
namespace Sys2Proof.Machine

/-! ## Names the spec sets in capitals -/

/-- The statuses a reply can carry (R156). -/
inductive Status where
  | ok
  | accepted
  | badLength
  | range
  | badCurve
  | duplicate
  | readOnly
  | profile
  | busy
  | empty
  | inUse
  | full
  | notFound
  | exhausted
  | stale
  deriving DecidableEq, Repr

/-- The reasons a REJECT can carry (R157). -/
inductive RejectReason where
  | badCheck
  | truncated
  | tooLong
  | unknownKind
  | overrun
  | notReady
  deriving DecidableEq, Repr

/-- The two running profiles, which `held_from` and a start-up profile name (R77, R79, R95). -/
inductive RunProfile where
  | active
  | economy
  deriving DecidableEq, Repr

/-- The operating profiles (R77). -/
inductive Profile where
  | active
  | economy
  | hold
  | standby
  deriving DecidableEq, Repr

/-- Which trim a channel applies (R1, R6). -/
inductive TrimSource where
  | stored
  | override
  deriving DecidableEq, Repr

/-- How an instance was started (R36). -/
inductive StartSource where
  | request
  | goLine
  | follow
  | startup
  deriving DecidableEq, Repr

/-- The outcome an instance leaves the Active List with (R52, R56). -/
inductive CueOutcome where
  | complete
  | partialDone
  | stopped
  deriving DecidableEq, Repr

/-- The mode of an armed cue (R64). -/
inductive ArmMode where
  | once
  | repeats
  deriving DecidableEq, Repr

/-- The kinds of retained record (R95). -/
inductive RecordKind where
  | curves
  | trims
  | startup
  | label
  deriving DecidableEq, Repr

/-- The state of a generation in the map (R97). -/
inductive GenState where
  | blank
  | writing
  | good
  | bad
  deriving DecidableEq, Repr

/-- The cause of a device reset (R122). -/
inductive ResetCause where
  | power
  | pin
  | restart
  deriving DecidableEq, Repr

/-- The Start-up Loader's phase (R127). `held` stands before a reset base and carries the cause that the reset base will
record: POWER and PIN from the reset condition on, which ends READY (R122, R123); RESTART at the end of its reply, the moment of
its reset base (R125), up to which READY lasts (R127, log 8). -/
inductive Phase where
  | held (cause : ResetCause)
  | start
  | ready
  deriving DecidableEq, Repr

/-- The bit rates of the link (R149). -/
inductive BitRate where
  | r19200
  | r57600
  | r115200
  | r460800
  deriving DecidableEq, Repr

/-! ## Channels and curves -/

/-- A channel record (R1). -/
structure Channel where
  level : Nat
  owner : Option Byte
  slot : SlotNo
  source : TrimSource
  overrideTrim : Int
  storedTrim : Int
  driveCode : Nat
  deriving DecidableEq, Repr

/-- A point of a curve: an input level and an output code (R3). -/
structure Point where
  input : Nat
  output : Nat
  deriving DecidableEq, Repr

/-- A curve: a list of points, lowest input first (R3). -/
abbrev Curve := List Point

/-- The two-point linear curve of slot 0, and of every slot after a device reset (R3, R19). -/
def linearCurve : Curve := [⟨0, 0⟩, ⟨1000, 4095⟩]

/-! ## Cues and instances -/

/-- An entry of a cue record (R23); fade and delay count 10 ms. -/
structure CueEntry where
  channel : ChannelNo
  target : Nat
  fade : Nat
  delay : Nat
  deriving DecidableEq, Repr

/-- The content of a DEFINED cue record (R22). -/
structure CueRecord where
  entries : List CueEntry
  follow : Option CueIdx
  deriving DecidableEq, Repr

/-- The state of an entry copy. `start_level` and `step` are present while the entry is FADING and absent otherwise (R37). -/
inductive EntryState where
  | waiting
  | fading (startLevel step : Nat)
  | done
  | taken
  | overridden
  | cut
  deriving DecidableEq, Repr

/-- An entry copy in an instance record (R37). -/
structure EntryCopy where
  entry : CueEntry
  state : EntryState
  deriving DecidableEq, Repr

/-- An instance record (R36). `cue` is none for the start-up instance, whose cue number is 0. -/
structure Instance where
  id : Byte
  cue : Option CueIdx
  source : StartSource
  follow : Option CueIdx
  elapsed : Nat
  entries : List EntryCopy
  deriving DecidableEq, Repr

/-- An armed cue (R64). -/
structure Armed where
  cue : CueIdx
  mode : ArmMode
  deriving DecidableEq, Repr

/-! ## The retained store -/

/-- What a STARTUP generation holds for one channel (R95). -/
structure SceneChannel where
  level : Nat
  slot : SlotNo
  source : TrimSource
  deriving DecidableEq, Repr

/-- The content of a STARTUP generation (R95). -/
structure Scene where
  channels : Vector SceneChannel 16
  fade : Nat
  profile : RunProfile
  activeClass : Fin 6
  economyClass : Fin 6
  deriving DecidableEq, Repr

/-- The content of one generation of some kind: what a snapshot holds (R95, R103). -/
inductive Content where
  | curves (slots : Vector Curve 7)
  | trims (trims : Vector Int 16)
  | startup (scene : Scene)
  | label (bytes : Vector Byte 16)
  deriving DecidableEq, Repr

/-- A place of the non-volatile array as it would be found when the array is read (R96). -/
inductive Place (α : Type) where
  | blank
  | good (content : α)
  | bad
  deriving DecidableEq, Repr

/-- The non-volatile array: four generations of each kind (R95). -/
structure RetainedArray where
  curves : Vector (Place (Vector Curve 7)) 4
  trims : Vector (Place (Vector Int 16)) 4
  startup : Vector (Place Scene) 4
  label : Vector (Place (Vector Byte 16)) 4
  deriving DecidableEq, Repr

/-- The generation map (R97). -/
structure GenMap where
  curves : Vector GenState 4
  trims : Vector GenState 4
  startup : Vector GenState 4
  label : Vector GenState 4
  deriving DecidableEq, Repr

/-- The in-flight program record (R100). The kind is that of the snapshot; the remaining time is held as the moment of
acceptance, from which R104 counts 48 ms. -/
structure Program where
  generation : GenIdx
  snapshot : Content
  acceptedAt : Nat
  deriving DecidableEq, Repr

/-! ## Reports -/

/-- What the START report carries for one kind: the generation loaded, 0 for defaults, and the fallback flag (R131). -/
structure LoadNote where
  generation : Nat
  fallback : Bool
  deriving DecidableEq, Repr

/-- The bodies of the ordinary report kinds (R139). -/
inductive ReportBody where
  | start (cause : ResetCause) (curves trims startup label : LoadNote)
  | cueDone (id : Byte) (cue : Option CueIdx) (outcome : CueOutcome) (done taken overridden cut : Nat)
  | cueStarted (id : Byte) (cue : CueIdx) (source : StartSource)
  | startRefused (cue : CueIdx) (source : StartSource) (reason : Status)
  | programDone (kind : RecordKind) (generation : GenIdx) (outcome : ReadBack)
  deriving DecidableEq, Repr

/-- An ordinary report record (R138). -/
structure Report where
  number : Half
  time : Wide
  body : ReportBody
  deriving DecidableEq, Repr

/-- The OVERFLOW record (R138, R142). Its number field repeats the first lost number (R140). -/
structure Overflow where
  first : Half
  lost : Nat
  time : Wide
  deriving DecidableEq, Repr

/-! ## The Link Port -/

/-- A frame, less its start byte, length and check, which follow from it (R150, R151). -/
structure Frame where
  seq : Byte
  kind : Byte
  payload : List Byte
  deriving DecidableEq, Repr

/-- The receiver with its partial frame (R152). HEADER stands as three constructors and CHECK as two, one for each byte that
the state waits for. -/
inductive Receiver where
  /-- HUNT. -/
  | hunt
  /-- HEADER, the sequence not yet taken. -/
  | headerSeq
  /-- HEADER, the kind not yet taken. -/
  | headerKind (seq : Byte)
  /-- HEADER, the length not yet taken. -/
  | headerLength (seq kind : Byte)
  /-- PAYLOAD, `got` of `length` bytes taken. -/
  | payload (seq kind : Byte) (length : Nat) (got : List Byte)
  /-- CHECK, the high byte not yet taken. -/
  | checkHigh (seq kind : Byte) (got : List Byte)
  /-- CHECK, the low byte not yet taken. -/
  | checkLow (seq kind : Byte) (got : List Byte) (high : Byte)
  deriving DecidableEq, Repr

/-- The break detector (R162). TIMING holds the moment from which RXD has been low. -/
inductive BreakDetector where
  | idle
  | timing (since : Nat)
  | latched
  deriving DecidableEq, Repr

/-- The Last Reply Record, when it is not clear (R158). -/
structure LastReply where
  seq : Byte
  check : Half
  reply : Frame
  deriving DecidableEq, Repr

/-- The frame in transmission, and the moment its transmission began (R160). -/
structure Sending where
  frame : Frame
  startedAt : Nat
  deriving DecidableEq, Repr

/-! ## Outcomes of a command that is not taken -/

/-- The spec names no condition that stops the part: no command faults. -/
inductive Fault where
  deriving DecidableEq, Repr

/-- Why a command has no meaning. -/
inductive Refusal where
  /-- Raised by exec's arm of a command that the model has no meaning for. Safe: nothing is claimed of it. -/
  | notModelled (mnemonic : String)
  /-- Raised by a request command whose payload no frame can carry (R150), and by STORE_LOAD_NO_RECORD_KIND with a payload that
  names a record kind, which is another row's (R186). Safe: the part cannot be sent such a command. -/
  | illFormed
  deriving DecidableEq, Repr

/-! ## The state -/

/-- The state of the KL16. -/
structure State where
  -- Channel Table and Curve Store (slots 1 to 7; slot 0 is fixed, R3)
  channels : Vector Channel 16
  curves : Vector Curve 7
  -- Profile Controller
  profile : Profile
  heldFrom : RunProfile
  activeClass : Fin 6
  economyClass : Fin 6
  -- Cue Table
  cues : Vector (Option CueRecord) 32
  -- Cue Engine
  active : List Instance
  nextId : Byte
  uptime : Wide
  fadeDue : Nat
  armed : Option Armed
  follows : List CueIdx
  goEdge : Option Nat
  -- Retained Store: the array and IDENT are not volatile
  array : RetainedArray
  ident : Option Wide
  map : GenMap
  inFlight : Option Program
  label : Vector Byte 16
  serial : Wide
  -- Report Queue
  reports : List Report
  overflow : Option Overflow
  nextReport : Half
  -- Start-up Loader
  phase : Phase
  cause : ResetCause
  restarting : Bool
  -- Link Port
  bitRate : BitRate
  receiver : Receiver
  interByte : Option Nat
  breakDetector : BreakDetector
  lastReply : Option LastReply
  sending : Option Sending
  waiting : Option Frame
  -- pins
  oe : PinLevel
  rxd : PinLevel
  -- the model's own: block time in microseconds, and the commands that wait
  clock : Nat
  pending : List Instr
  deriving DecidableEq, Repr

/-- A channel record at the reset base (R19). -/
def baseChannel : Channel :=
  { level := 0, owner := none, slot := 0, source := .stored, overrideTrim := 0, storedTrim := 0, driveCode := 0 }

/-- The generation map from the reset base to load completion: every place BLANK (R120). -/
def blankMap : GenMap :=
  { curves := Vector.replicate 4 .blank
    trims := Vector.replicate 4 .blank
    startup := Vector.replicate 4 .blank
    label := Vector.replicate 4 .blank }

/-- An array in which nothing has been programmed: every header mark unwritten (R96). -/
def blankArray : RetainedArray :=
  { curves := Vector.replicate 4 .blank
    trims := Vector.replicate 4 .blank
    startup := Vector.replicate 4 .blank
    label := Vector.replicate 4 .blank }

/-- Sixteen spaces (R99, R109). -/
def spaces : Vector Byte 16 := Vector.replicate 16 0x20

/-- The machine right after the reset base of a reset of cause POWER (R126), in the START phase.
DESIGN CHOICE (unsafe, logs 6, 7, 9): the cause, the array and IDENT, the levels of RXD, OE and the straps, and the block time. -/
def State.reset : State where
  channels := Vector.replicate 16 baseChannel
  curves := Vector.replicate 7 linearCurve
  profile := .active
  heldFrom := .active
  activeClass := 0
  economyClass := 4
  cues := Vector.replicate 32 none
  active := []
  nextId := 1
  uptime := 0
  fadeDue := Config.fadePeriod
  armed := none
  follows := []
  goEdge := none
  array := blankArray
  ident := some 0
  map := blankMap
  inFlight := none
  label := spaces
  serial := 0
  reports := []
  overflow := none
  nextReport := 0
  phase := .start
  cause := .power
  restarting := false
  bitRate := .r19200
  receiver := .hunt
  interByte := none
  breakDetector := .idle
  lastReply := none
  sending := none
  waiting := none
  oe := .low
  rxd := .high
  clock := 0
  pending := []

end Sys2Proof.Machine
end

