-- ==== Sys2Proof/Machine/Operands.lean ====
section
/-!
DEFINITION. The fields of frames, payloads and reports (chapter 11): reading a request's fields with their ranges (R168), writing
a reply's fields (R188, R190), report records (R191), and the frame check (R151).
-/
namespace Sys2Proof.Machine

/-! ## Numbers of two and four bytes, most significant byte first (R188) -/

/-- The two-byte unsigned field with these bytes. -/
def word16 (hi lo : Byte) : Nat := hi.toNat * 256 + lo.toNat

/-- The two-byte signed field with these bytes, two's complement (R188). -/
def signed16 (hi lo : Byte) : Int := (hi ++ lo : BitVec 16).toInt

/-- The bytes of a two-byte field. -/
def bytes16 (n : Nat) : List Byte := [BitVec.ofNat 8 (n / 256), BitVec.ofNat 8 n]

/-- The bytes of a two-byte signed field. -/
def bytesSigned16 (z : Int) : List Byte :=
  let w : BitVec 16 := BitVec.ofInt 16 z
  [w.extractLsb' 8 8, w.extractLsb' 0 8]

/-- The bytes of a four-byte field. -/
def bytes32 (w : Wide) : List Byte :=
  [w.extractLsb' 24 8, w.extractLsb' 16 8, w.extractLsb' 8 8, w.extractLsb' 0 8]

/-- A one-byte field. -/
def byteOf (n : Nat) : Byte := BitVec.ofNat 8 n

/-! ## Fields of a request with their ranges; none is the RANGE refusal (R168) -/

/-- A channel mask; zero is out of range. -/
def mask? (hi lo : Byte) : Option Half :=
  if (hi ++ lo : BitVec 16) = 0 then none else some (hi ++ lo)

/-- The mask selects the channel: bit n selects channel n. -/
def selects (mask : Half) (c : ChannelNo) : Bool := mask.getLsbD c.val

/-- A channel, 0 to 15. -/
def channel? (b : Byte) : Option ChannelNo :=
  if h : b.toNat < 16 then some ⟨b.toNat, h⟩ else none

/-- A level or target, 0 to 1000. -/
def level? (hi lo : Byte) : Option Nat :=
  if word16 hi lo ≤ 1000 then some (word16 hi lo) else none

/-- A curve slot, 0 to 7. -/
def slot? (b : Byte) : Option SlotNo :=
  if h : b.toNat < 8 then some ⟨b.toNat, h⟩ else none

/-- A trim, -255 to +255. -/
def trim? (hi lo : Byte) : Option Int :=
  if -255 ≤ signed16 hi lo ∧ signed16 hi lo ≤ 255 then some (signed16 hi lo) else none

/-- A trim source (R188). -/
def trimSource? (b : Byte) : Option TrimSource :=
  if b = 0x00 then some .stored else if b = 0x01 then some .override else none

/-- A cue number, 1 to 32. -/
def cue? (b : Byte) : Option CueIdx :=
  if h : 1 ≤ b.toNat ∧ b.toNat ≤ 32 then some ⟨b.toNat - 1, by omega⟩ else none

/-- A follow value: 0 stands for absent, 1 to 32 name a cue (R26). The outer option is the range. -/
def follow? (b : Byte) : Option (Option CueIdx) :=
  if b = 0 then some none else (cue? b).map some

/-- A fade, delay or start-up fade time, 0 to 60000. -/
def time? (hi lo : Byte) : Option Nat :=
  if word16 hi lo ≤ 60000 then some (word16 hi lo) else none

/-- A profile (R188). -/
def profile? (b : Byte) : Option Profile :=
  if b = 0x00 then some .active
  else if b = 0x01 then some .economy
  else if b = 0x02 then some .hold
  else if b = 0x03 then some .standby
  else none

/-- A profile narrowed to ACTIVE or ECONOMY, as SET_CEILING and a start-up profile take it (R173, R185). -/
def runProfile? (b : Byte) : Option RunProfile :=
  if b = 0x00 then some .active else if b = 0x01 then some .economy else none

/-- A ceiling class, 0 to 5. -/
def class? (b : Byte) : Option (Fin 6) :=
  if h : b.toNat < 6 then some ⟨b.toNat, h⟩ else none

/-- An arm mode, ONCE or REPEAT (R188). -/
def armMode? (b : Byte) : Option ArmMode :=
  if b = 0x01 then some .once else if b = 0x02 then some .repeats else none

/-- A record kind (R188). -/
def recordKind? (b : Byte) : Option RecordKind :=
  if b = 0x01 then some .curves
  else if b = 0x02 then some .trims
  else if b = 0x03 then some .startup
  else if b = 0x04 then some .label
  else none

/-- A generation, 1 to 4. -/
def generation? (b : Byte) : Option GenIdx :=
  if h : 1 ≤ b.toNat ∧ b.toNat ≤ 4 then some ⟨b.toNat - 1, by omega⟩ else none

/-- A fetch maximum, 1 to 16. -/
def fetchMax? (b : Byte) : Option Nat :=
  if 1 ≤ b.toNat ∧ b.toNat ≤ 16 then some b.toNat else none

/-- The points of a payload, four bytes each; a point's fields are judged by R4 and not here (R190). -/
def points : List Byte → List Point
  | a :: b :: c :: d :: rest => ⟨word16 a b, word16 c d⟩ :: points rest
  | _ => []

/-- The entries of a payload, seven bytes each; none when a field of one is out of range (R27, R190). -/
def entries? : List Byte → Option (List CueEntry)
  | c :: t1 :: t0 :: f1 :: f0 :: d1 :: d0 :: rest =>
    match channel? c, level? t1 t0, time? f1 f0, time? d1 d0, entries? rest with
    | some channel, some target, some fade, some delay, some es => some (⟨channel, target, fade, delay⟩ :: es)
    | _, _, _, _, _ => none
  | _ => some []

/-! ## Codes (R188) -/

/-- The cue number of a place of the table. -/
def cueNumber (c : CueIdx) : Nat := c.val + 1

/-- A cue field in which 0 stands for the start-up instance, an absent follow or an empty Arm Slot. -/
def cueByte : Option CueIdx → Byte
  | none => 0
  | some c => byteOf (cueNumber c)

/-- The generation number of a place. -/
def genNumber (g : GenIdx) : Nat := g.val + 1

/-- The code of a status. -/
def Status.code : Status → Byte
  | .ok => 0x00
  | .accepted => 0x01
  | .badLength => 0x10
  | .range => 0x11
  | .badCurve => 0x12
  | .duplicate => 0x13
  | .readOnly => 0x14
  | .profile => 0x20
  | .busy => 0x21
  | .empty => 0x30
  | .inUse => 0x31
  | .full => 0x32
  | .notFound => 0x33
  | .exhausted => 0x34
  | .stale => 0x35

/-- The code of a reject reason. -/
def RejectReason.code : RejectReason → Byte
  | .badCheck => 0x01
  | .truncated => 0x02
  | .tooLong => 0x03
  | .unknownKind => 0x04
  | .overrun => 0x05
  | .notReady => 0x06

/-- The code of a profile. -/
def Profile.code : Profile → Byte
  | .active => 0x00
  | .economy => 0x01
  | .hold => 0x02
  | .standby => 0x03

/-- The code of a running profile. -/
def RunProfile.code : RunProfile → Byte
  | .active => 0x00
  | .economy => 0x01

/-- The code of a trim source. -/
def TrimSource.code : TrimSource → Byte
  | .stored => 0x00
  | .override => 0x01

/-- The code of an arm mode. -/
def ArmMode.code : ArmMode → Byte
  | .once => 0x01
  | .repeats => 0x02

/-- The code of a record kind. -/
def RecordKind.code : RecordKind → Byte
  | .curves => 0x01
  | .trims => 0x02
  | .startup => 0x03
  | .label => 0x04

/-- The code of a generation state. -/
def GenState.code : GenState → Byte
  | .blank => 0x00
  | .writing => 0x01
  | .good => 0x02
  | .bad => 0x03

/-- The code of a program outcome. -/
def outcomeCode : ReadBack → Byte
  | .good => 0x02
  | .bad => 0x03

/-- The code of an instance source. -/
def StartSource.code : StartSource → Byte
  | .request => 0x00
  | .goLine => 0x01
  | .follow => 0x02
  | .startup => 0x03

/-- The code of an entry state. -/
def EntryState.code : EntryState → Byte
  | .waiting => 0x00
  | .fading _ _ => 0x01
  | .done => 0x02
  | .taken => 0x03
  | .overridden => 0x04
  | .cut => 0x05

/-- The code of an instance outcome. -/
def CueOutcome.code : CueOutcome → Byte
  | .complete => 0x00
  | .partialDone => 0x01
  | .stopped => 0x02

/-- The code of a reset cause. -/
def ResetCause.code : ResetCause → Byte
  | .power => 0x01
  | .pin => 0x02
  | .restart => 0x03

/-- The code of a pin's level. -/
def levelCode : PinLevel → Byte
  | .low => 0x00
  | .high => 0x01

/-! ## Request kinds (R188) -/

/-- The 26 request kinds, the catalogue of R155. -/
inductive RequestKind where
  | hello
  | status
  | fetch
  | restart
  | setProfile
  | setCeiling
  | curveWrite
  | curveRead
  | bind
  | trimSet
  | trimSource
  | channelRead
  | setLevel
  | cueLoad
  | cueRead
  | cueClear
  | cueGo
  | cueArm
  | cueDisarm
  | cueStop
  | cueStopAll
  | activeRead
  | storeStatus
  | storeProgram
  | storeLoad
  | labelSet
  deriving DecidableEq, Repr

/-- The code of a request kind. -/
def RequestKind.code : RequestKind → Byte
  | .hello => 0x01
  | .status => 0x02
  | .fetch => 0x03
  | .restart => 0x04
  | .setProfile => 0x10
  | .setCeiling => 0x11
  | .curveWrite => 0x20
  | .curveRead => 0x21
  | .bind => 0x22
  | .trimSet => 0x23
  | .trimSource => 0x24
  | .channelRead => 0x25
  | .setLevel => 0x26
  | .cueLoad => 0x30
  | .cueRead => 0x31
  | .cueClear => 0x32
  | .cueGo => 0x33
  | .cueArm => 0x34
  | .cueDisarm => 0x35
  | .cueStop => 0x36
  | .cueStopAll => 0x37
  | .activeRead => 0x38
  | .storeStatus => 0x40
  | .storeProgram => 0x41
  | .storeLoad => 0x42
  | .labelSet => 0x43

/-- The catalogue, in the order of the codes. -/
def catalogue : List RequestKind :=
  [.hello, .status, .fetch, .restart, .setProfile, .setCeiling, .curveWrite, .curveRead, .bind, .trimSet, .trimSource,
    .channelRead, .setLevel, .cueLoad, .cueRead, .cueClear, .cueGo, .cueArm, .cueDisarm, .cueStop, .cueStopAll, .activeRead,
    .storeStatus, .storeProgram, .storeLoad, .labelSet]

/-- The request kind that a kind byte names, if any. -/
def requestKind? (b : Byte) : Option RequestKind := catalogue.find? (fun k => k.code == b)

/-! ## The frame (R150, R151, R189) -/

/-- One shift of the check register: combined with 0x1021 when the bit shifted out is 1 (R151 step 3). -/
def crcShift (r : Half) : Half :=
  if r.msb then (r <<< 1) ^^^ 0x1021 else r <<< 1

/-- One covered byte: combined into the high eight bits, then eight shifts (R151 steps 2 and 3). -/
def crcByte (r : Half) (b : Byte) : Half :=
  let r := r ^^^ (b ++ (0 : Byte) : BitVec 16)
  crcShift (crcShift (crcShift (crcShift (crcShift (crcShift (crcShift (crcShift r)))))))

/-- The check over covered bytes; the register starts at 0xFFFF (R151). -/
def crc (bytes : List Byte) : Half := bytes.foldl crcByte 0xFFFF

/-- The check of a frame: over sequence, kind, length and payload (R151). -/
def frameCheck (seq kind : Byte) (payload : List Byte) : Half :=
  crc (seq :: kind :: byteOf payload.length :: payload)

/-- The bytes of a frame on the line (R150, R189). -/
def frameBytes (f : Frame) : List Byte :=
  let check := frameCheck f.seq f.kind f.payload
  [0xC3, f.seq, f.kind, byteOf f.payload.length] ++ f.payload ++ [check.extractLsb' 8 8, check.extractLsb' 0 8]

/-- The REJECT frame of a sequence and reason (R157). -/
def rejectFrame (seq : Byte) (why : RejectReason) : Frame := { seq := seq, kind := 0xFF, payload := [why.code] }

/-- What an executed request answers: a status and, for OK and ACCEPTED, a payload (R156). -/
structure Reply where
  status : Status
  body : List Byte
  deriving DecidableEq, Repr

/-- The reply frame: the request's sequence, its kind plus 0x80, the status and the body (R156). -/
def replyFrame (seq : Byte) (kind : RequestKind) (r : Reply) : Frame :=
  { seq := seq, kind := kind.code + 0x80, payload := r.status.code :: r.body }

/-! ## Report records (R191) -/

/-- The START body's byte of one kind: the generation in the low bits and the fallback flag in the highest. -/
def noteByte (n : LoadNote) : Byte := byteOf (n.generation + if n.fallback then 128 else 0)

/-- The code of an ordinary report kind (R188). -/
def reportCode : ReportBody → Byte
  | .start .. => 0x01
  | .cueDone .. => 0x02
  | .cueStarted .. => 0x03
  | .startRefused .. => 0x04
  | .programDone .. => 0x05

/-- The seven body bytes of an ordinary report. -/
def reportBodyBytes : ReportBody → List Byte
  | .start cause c t s l => [cause.code, noteByte c, noteByte t, noteByte s, noteByte l, 0, 0]
  | .cueDone id cue outcome done taken overridden cut =>
    [id, cueByte cue, outcome.code, byteOf done, byteOf taken, byteOf overridden, byteOf cut]
  | .cueStarted id cue source => [id, cueByte (some cue), source.code, 0, 0, 0, 0]
  | .startRefused cue source reason => [cueByte (some cue), source.code, reason.code, 0, 0, 0, 0]
  | .programDone kind g outcome => [kind.code, byteOf (genNumber g), outcomeCode outcome, 0, 0, 0, 0]

/-- The 14 bytes of an ordinary report record. -/
def reportBytes (r : Report) : List Byte :=
  reportCode r.body :: bytes16 r.number.toNat ++ bytes32 r.time ++ reportBodyBytes r.body

/-- The 14 bytes of the OVERFLOW record. -/
def overflowBytes (o : Overflow) : List Byte :=
  (0x0F : Byte) :: bytes16 o.first.toNat ++ bytes32 o.time ++ bytes16 o.first.toNat ++ bytes16 o.lost ++ [0, 0, 0]

end Sys2Proof.Machine
end

