-- ==== Sys2Proof/Machine/Flags.lean ====
section
/-!
DEFINITION. The lines and conditions that are functions of the state and have no storage of their own: the delivered codes of
the pins, ATTN, the ceiling in force, the running profiles, FREE and OWNED, and the timers' readings.
-/
namespace Sys2Proof.Machine

/-- The part is held for a reset base: a reset condition holds it (R123), or the reply of a RESTART has been sent (R125, log 8). -/
def State.isHeld (s : State) : Bool :=
  match s.phase with
  | .held _ => true
  | _ => false

/-- A reset of cause PIN or POWER acts on the part, from its reset condition to its reset base (R123). A RESTART has no such
condition: READY lasts to its reset base (R127). -/
def State.conditionHolds (s : State) : Bool :=
  match s.phase with
  | .held .power => true
  | .held .pin => true
  | .held .restart => false
  | .start => false
  | .ready => false

/-- No character is received: the part is held in reset (R123), or a break stands (R162, LATCHED). DEDUCED (log 11). -/
def State.deaf (s : State) : Bool := s.isHeld || decide (s.breakDetector = .latched)

/-- ACTIVE and ECONOMY are the running profiles (R79). -/
def Profile.running : Profile → Bool
  | .active => true
  | .economy => true
  | .hold => false
  | .standby => false

/-- A running profile as a profile. -/
def RunProfile.toProfile : RunProfile → Profile
  | .active => .active
  | .economy => .economy

/-- A channel is OWNED while its owner names an instance (R1). -/
def Channel.owned (ch : Channel) : Bool := ch.owner.isSome

/-- The ceiling of a class (R78). -/
def classCeiling (k : Fin 6) : Nat :=
  match k with
  | 0 => 4095
  | 1 => 3686
  | 2 => 3276
  | 3 => 2867
  | 4 => 2457
  | 5 => 2048

/-- The ceiling class of a running profile (R77). -/
def State.classOf (s : State) : RunProfile → Fin 6
  | .active => s.activeClass
  | .economy => s.economyClass

/-- The running profile whose ceiling is in force; none in STANDBY (R78). -/
def State.ceilingProfile (s : State) : Option RunProfile :=
  match s.profile with
  | .active => some .active
  | .economy => some .economy
  | .hold => some s.heldFrom
  | .standby => none

/-- The ceiling in force (R78); none in STANDBY. -/
def State.ceiling (s : State) : Option Nat := s.ceilingProfile.map fun p => classCeiling (s.classOf p)

/-- The code delivered to pin OUTn: 0 while OE is low, in the START phase (R10) and while a reset condition holds the part (R123);
the channel's drive code at all other times. The PWM period is left out: DESIGN CHOICE (log 13). -/
def State.delivered (s : State) (c : ChannelNo) : Nat :=
  if s.oe = .low ∨ s.phase = .start ∨ s.conditionHolds then 0 else s.channels[c].driveCode

/-- The number of records in the Report Queue, OVERFLOW counted as one (R137). -/
def State.reportCount (s : State) : Nat := s.reports.length + if s.overflow.isSome then 1 else 0

/-- ATTN is held low: the queue holds a record (R146) and no reset condition has released the line (R123). -/
def State.attnLow (s : State) : Bool := !s.conditionHolds && decide (0 < s.reportCount)

/-- The remaining time of a program in whole milliseconds rounded up, 1 to 48 (R104). DEDUCED (log 15). -/
def State.remaining (s : State) (p : Program) : Nat :=
  max 1 ((p.acceptedAt + Config.programTime - s.clock + 999) / 1000)

/-- A falling edge on GO at this moment is taken (R67). -/
def State.edgeTaken (s : State) : Bool :=
  decide (s.phase = .ready) &&
    match s.goEdge with
    | none => true
    | some t => decide (Config.debounce ≤ s.clock - t)

/-- Bits a second of each rate (R149). -/
def BitRate.perSecond : BitRate → Nat
  | .r19200 => 19200
  | .r57600 => 57600
  | .r115200 => 115200
  | .r460800 => 460800

/-- The rate that RATE1 and RATE0 select (R149). -/
def strapRate : PinLevel → PinLevel → BitRate
  | .low, .low => .r19200
  | .low, .high => .r57600
  | .high, .low => .r115200
  | .high, .high => .r460800

/-- The microseconds a frame is in transmission: ten bits a character, sent back to back (R149, R160). In whole microseconds: DESIGN
CHOICE (log 14). -/
def sendTime (rate : BitRate) (f : Frame) : Nat := (frameBytes f).length * 10 * 1000000 / rate.perSecond

end Sys2Proof.Machine
end

