-- ==== Sys2Proof/Machine/Ops.lean ====
section
/-!
DEFINITION. The shared operations over channels, curves, the Report Queue and the outbound queue.
-/
namespace Sys2Proof.Machine

/-! ## Curves (R3, R4, R5) -/

/-- Each point's input is strictly greater than the one before it (R4). -/
def inputsRise : Curve → Bool
  | p :: q :: rest => decide (p.input < q.input) && inputsRise (q :: rest)
  | _ => true

/-- A valid curve (R4). -/
def validCurve (c : Curve) : Bool :=
  decide (2 ≤ c.length ∧ c.length ≤ 16) &&
  decide (c.head?.map Point.input = some 0) &&
  decide (c.getLast?.map Point.input = some 1000) &&
  inputsRise c &&
  c.all fun p => decide (p.output ≤ 4095)

/-- The value between two adjacent points, rounded to the nearest integer and half up (R5 steps 3 and 4). -/
def interpolate (p q : Point) (level : Nat) : Nat :=
  let numerator := p.output * (q.input - level) + q.output * (level - p.input)
  let denominator := q.input - p.input
  (2 * numerator + denominator) / (2 * denominator)

/-- The curve value of a level (R5). -/
def curveValue : Curve → Nat → Nat
  | p :: q :: rest, level =>
    if level = p.input then p.output
    else if level < q.input then interpolate p q level
    else curveValue (q :: rest) level
  | [p], _ => p.output
  | [], _ => 0

/-- The curve of a slot: slot 0 is fixed, slots 1 to 7 are held (R3). -/
def State.curveAt (s : State) (k : SlotNo) : Curve :=
  if h : k.val = 0 then linearCurve else s.curves[k.val - 1]'(by omega)

/-! ## The drive code (R6, R7, R8, R9) -/

/-- The effective trim (R6). -/
def Channel.effectiveTrim (ch : Channel) : Int :=
  match ch.source with
  | .override => ch.overrideTrim
  | .stored => ch.storedTrim

/-- A sum of curve value and trim, held between 0 and the ceiling (R8 step 3). -/
def clampCode (sum : Int) (ceiling : Nat) : Nat :=
  if sum < 0 then 0 else if (ceiling : Int) < sum then ceiling else sum.toNat

/-- The drive code that R7 and R8 give for the channel's present inputs. -/
def State.codeOf (s : State) (ch : Channel) : Nat :=
  match s.ceiling with
  | none => 0
  | some ceiling =>
    if ch.level = 0 then 0
    else clampCode (curveValue (s.curveAt ch.slot) ch.level + ch.effectiveTrim) ceiling

/-- The channel with its drive code recomputed (R9). -/
def State.recoded (s : State) (ch : Channel) : Channel := { ch with driveCode := s.codeOf ch }

/-- Every channel record changed by a function of its number and its record. -/
def State.mapChannels (s : State) (f : ChannelNo → Channel → Channel) : State :=
  { s with channels := Vector.ofFn fun c => f c s.channels[c] }

/-- The drive codes of the channels that `p` picks, recomputed from the inputs as they now stand (R9). -/
def State.recode (s : State) (p : Channel → Bool) : State :=
  s.mapChannels fun _ ch => if p ch then s.recoded ch else ch

/-- Every drive code recomputed (R9, R84). -/
def State.recodeAll (s : State) : State := s.recode fun _ => true

/-- A channel's level and owner written, its drive code recomputed (R2, R9, R42). A write that keeps the level: DEDUCED
(log 17). -/
def State.writeLevel (s : State) (c : ChannelNo) (level : Nat) (owner : Option Byte) : State :=
  s.mapChannels fun c' ch => if c' = c then s.recoded { ch with level := level, owner := owner } else ch

/-- A channel's owner written; the level and the drive code stand (R43: becoming FADING leaves the level as it was). -/
def State.writeOwner (s : State) (c : ChannelNo) (owner : Option Byte) : State :=
  s.mapChannels fun c' ch => if c' = c then { ch with owner := owner } else ch

/-- Some OWNED channel is bound to a slot that `p` picks (R15, R111). -/
def State.ownedOn (s : State) (p : SlotNo → Bool) : Bool :=
  s.channels.toList.any fun ch => ch.owned && p ch.slot

/-! ## The Report Queue (R140, R141, R142) -/

/-- A report event: it takes the counter's number, and is appended, or lost into a new or standing OVERFLOW record (R141). -/
def State.report (s : State) (body : ReportBody) : State :=
  match s.overflow with
  | some o => { s with nextReport := s.nextReport + 1, overflow := some { o with lost := min 65535 (o.lost + 1) } }
  | none =>
    if s.reports.length < Config.maxReports then
      { s with
        nextReport := s.nextReport + 1
        reports := s.reports ++ [{ number := s.nextReport, time := s.uptime, body := body }] }
    else
      { s with
        nextReport := s.nextReport + 1
        overflow := some { first := s.nextReport, lost := 1, time := s.uptime } }

/-! ## The outbound queue (R160) -/

/-- A frame offered to the outbound queue enters transmission, waits, or is dropped (R160). -/
def State.offer (s : State) (f : Frame) : State :=
  match s.sending, s.waiting with
  | none, _ => { s with sending := some { frame := f, startedAt := s.clock } }
  | some _, none => { s with waiting := some f }
  | some _, some _ => s

/-- The receiver returns to HUNT: the partial frame is discarded and the inter-byte timer is idle (R152). -/
def State.toHunt (s : State) : State := { s with receiver := .hunt, interByte := none }

/-- Block time moved on to a moment, when that lies ahead: a timer's end has come (log 3). -/
def State.advanceTo (s : State) (moment : Nat) : State := { s with clock := max s.clock moment }

end Sys2Proof.Machine
end

