-- ==== Sys2Proof/Machine/Engine.lean ====
section
/-!
DEFINITION. The Cue Engine: entry starts and ownership (R42, R43, R48), fade steps (R47), completion (R51, R52, R53), the start
procedure (R38, R39, R41), stops (R56), the Follow List (R72, R73) and the fade-clock expiry (R46).
-/
namespace Sys2Proof.Machine

/-! ## Entries and instances -/

/-- An entry copy at its creation: WAITING (R37). -/
def waitingCopy (e : CueEntry) : EntryCopy := { entry := e, state := .waiting }

/-- The entry is FADING. -/
def EntryCopy.isFading (e : EntryCopy) : Bool :=
  match e.state with
  | .fading _ _ => true
  | _ => false

/-- The entry can still act: WAITING or FADING (R51). -/
def EntryCopy.isLive (e : EntryCopy) : Bool :=
  match e.state with
  | .waiting => true
  | .fading _ _ => true
  | _ => false

/-- An instance with no WAITING entry and no FADING entry (R51). -/
def Instance.finished (i : Instance) : Bool := i.entries.all fun e => !e.isLive

/-- The instance has a FADING entry for the channel. -/
def Instance.fades (i : Instance) (c : ChannelNo) : Bool :=
  i.entries.any fun e => decide (e.entry.channel = c) && e.isFading

/-- The FADING entries for the channels that `p` picks leave FADING for `out` (R43, R54). -/
def Instance.endFades (i : Instance) (p : ChannelNo → Bool) (out : EntryState) : Instance :=
  { i with entries := i.entries.map fun e => if p e.entry.channel && e.isFading then { e with state := out } else e }

/-- The entry for a channel takes a state. No two entries of one instance name one channel (R24). -/
def Instance.setEntry (i : Instance) (c : ChannelNo) (out : EntryState) : Instance :=
  { i with entries := i.entries.map fun e => if e.entry.channel = c then { e with state := out } else e }

/-- The entry is WAITING and its delay equals the instance's `elapsed` (R46 step 4). -/
def Instance.entryDue (i : Instance) (e : EntryCopy) : Bool :=
  decide (e.state = .waiting) && decide (e.entry.delay = i.elapsed)

/-- The instance's entry for the channel whose delay ends at this expiry, if any (R48). -/
def Instance.dueOn (i : Instance) (c : ChannelNo) : Option CueEntry :=
  (i.entries.find? fun e => decide (e.entry.channel = c) && i.entryDue e).map EntryCopy.entry

/-- The instance's due entry for the channel loses to a newer instance's: TAKEN without acting (R48). -/
def Instance.loseDue (i : Instance) (c : ChannelNo) : Instance :=
  { i with entries := i.entries.map fun e =>
      if e.entry.channel = c ∧ i.entryDue e then { e with state := .taken } else e }

/-- The number of entries in states that `p` picks. -/
def Instance.count (i : Instance) (p : EntryState → Bool) : Nat := (i.entries.filter fun e => p e.state).length

/-- The outcome of a completion by the sweep: COMPLETE when every entry is DONE, PARTIAL otherwise (R52). -/
def Instance.sweepOutcome (i : Instance) : CueOutcome :=
  if i.entries.all fun e => decide (e.state = .done) then .complete else .partialDone

/-- The CUE_DONE body of an instance (R52, R56). -/
def Instance.doneReport (i : Instance) (outcome : CueOutcome) : ReportBody :=
  .cueDone i.id i.cue outcome (i.count (· == .done)) (i.count (· == .taken)) (i.count (· == .overridden)) (i.count (· == .cut))

/-- Every instance of the Active List changed in its place. -/
def State.mapActive (s : State) (f : Instance → Instance) : State := { s with active := s.active.map f }

/-! ## Entry starts (R43) -/

/-- `owner` names an instance newer than instance `id`: one behind it in the Active List (R35). An owner that no
instance holds counts as older: DESIGN CHOICE (log 22). -/
def newerThan (active : List Instance) (id owner : Byte) : Bool :=
  ((active.dropWhile fun i => decide (i.id ≠ id)).drop 1).any fun i => decide (i.id = owner)

/-- The channel is OWNED by an instance newer than `id` (R43, last row). -/
def State.heldByNewer (s : State) (id : Byte) (c : ChannelNo) : Bool :=
  match s.channels[c].owner with
  | none => false
  | some owner => newerThan s.active id owner

/-- The entry of instance `id` takes a state. -/
def State.setEntry (s : State) (id : Byte) (c : ChannelNo) (out : EntryState) : State :=
  s.mapActive fun i => if i.id = id then i.setEntry c out else i

/-- A FADING entry for the channel, of whatever instance, becomes TAKEN (R43). -/
def State.takeOver (s : State) (c : ChannelNo) : State :=
  s.mapActive fun i => i.endFades (fun c' => decide (c' = c)) .taken

/-- Entry `e` of instance `id` starts (R43). -/
def State.startEntry (s : State) (id : Byte) (e : CueEntry) : State :=
  if s.heldByNewer id e.channel then s.setEntry id e.channel .taken
  else if e.fade = 0 then ((s.takeOver e.channel).setEntry id e.channel .done).writeLevel e.channel e.target none
  else
    ((s.takeOver e.channel).setEntry id e.channel (.fading s.channels[e.channel].level 0)).writeOwner e.channel (some id)

/-! ## Completion (R51, R52, R53) -/

/-- A follow start handed to the Follow List: appended, or dropped with a report when four wait (R72). -/
def State.handOff (s : State) (c : CueIdx) : State :=
  if s.follows.length < Config.maxFollows then { s with follows := s.follows ++ [c] }
  else s.report (.startRefused c .follow .full)

/-- A finished instance, already out of the list, is reported and hands on its follow (R52 steps 2 to 4, R53). -/
def State.complete (s : State) (i : Instance) : State :=
  match i.sweepOutcome, i.follow with
  | .complete, some c => (s.report (i.doneReport .complete)).handOff c
  | out, _ => s.report (i.doneReport out)

/-- The finished instances leave the list; the records behind them move up (R52 step 1). -/
def State.dropFinished (s : State) : State := { s with active := s.active.filter fun i => !i.finished }

/-- The completion sweep: every finished instance leaves the list and completes, oldest first (R51). -/
def State.sweep (s : State) : State := (s.active.filter Instance.finished).foldl State.complete s.dropFinished

/-! ## The start procedure (R38, R39, R41) -/

/-- The next-id value after one: after 255 comes 1 (R38). -/
def nextIdAfter (id : Byte) : Byte := if id = 255 then 1 else id + 1

/-- An instance of the list holds the id. -/
def idHeld (active : List Instance) (id : Byte) : Bool := active.any fun i => decide (i.id = id)

/-- The first value from `id` on that no instance in the list holds, passing over at most `tries` values (R38). -/
def freeId (active : List Instance) : Nat → Byte → Byte
  | 0, id => id
  | tries + 1, id => if idHeld active id then freeId active tries (nextIdAfter id) else id

/-- The first check that refuses a start, in the order of R39. -/
def State.startRefusal (s : State) (c : CueIdx) : Option Status :=
  if s.cues[c] = none then some .empty
  else if !s.profile.running then some .profile
  else if Config.maxActive ≤ s.active.length then some .full
  else none

/-- A record joins the tail of the Active List (R35, R39 step 3). -/
def State.join (s : State) (i : Instance) : State := { s with active := s.active ++ [i] }

/-- A start by the GO line or as a follow is reported; a start by request or at start-up is not (R39 step 4, R40, R41). -/
def State.announce (s : State) (i : Instance) : State :=
  match i.source, i.cue with
  | .goLine, some c => s.report (.cueStarted i.id c .goLine)
  | .follow, some c => s.report (.cueStarted i.id c .follow)
  | _, _ => s

/-- Entries of instance `id` start one after another (R39 step 5). -/
def State.startEntries (s : State) (id : Byte) (es : List CueEntry) : State := es.foldl (fun u e => u.startEntry id e) s

/-- The entries of an instance that start with it: those with delay 0, in entry order (R39 step 5). -/
def Instance.atOnce (i : Instance) : List CueEntry := (i.entries.map EntryCopy.entry).filter fun e => decide (e.delay = 0)

/-- Steps 3 to 6 of R39. -/
def State.launch (s : State) (i : Instance) : State := (((s.join i).announce i).startEntries i.id i.atOnce).sweep

/-- The id a start takes (R38). -/
def State.issueId (s : State) : Byte := freeId s.active s.active.length s.nextId

/-- The instance record of a start (R36, R30): copies of the entries, each WAITING, and of the follow. -/
def newInstance (id : Byte) (c : CueIdx) (source : StartSource) (r : CueRecord) : Instance :=
  { id := id, cue := some c, source := source, follow := r.follow, elapsed := 0, entries := r.entries.map waitingCopy }

/-- The counter is set to the value following the id taken (R38). -/
def State.takeId (s : State) : State := { s with nextId := nextIdAfter s.issueId }

/-- An accepted start (R39): an id is issued, the record is built and launched. -/
def State.startCue (s : State) (c : CueIdx) (source : StartSource) (r : CueRecord) : State :=
  s.takeId.launch (newInstance s.issueId c source r)

/-- A start with no request behind it, by the GO line or as a follow: made, or refused with a report (R68, R69, R73). -/
def State.startReported (s : State) (c : CueIdx) (source : StartSource) : State :=
  match s.startRefusal c, s.cues[c] with
  | none, some r => s.startCue c source r
  | none, none => s
  | some why, _ => s.report (.startRefused c source why)

/-- The entries of the start-up instance: one for each channel in channel order, with the stored level as target (R41). -/
def sceneEntries (scene : Scene) : List CueEntry :=
  (List.finRange 16).map fun c => { channel := c, target := scene.channels[c].level, fade := scene.fade, delay := 0 }

/-- The start-up instance (R41). -/
def sceneInstance (scene : Scene) : Instance :=
  { id := 0, cue := none, source := .startup, follow := none, elapsed := 0, entries := (sceneEntries scene).map waitingCopy }

/-- The start-up instance joins the list and its entries start (R41, R115, R132). -/
def State.startScene (s : State) (scene : Scene) : State := s.launch (sceneInstance scene)

/-! ## Stops (R56, R57) -/

/-- Every WAITING and FADING entry becomes CUT (R56 steps 1 and 2). -/
def Instance.cutAll (i : Instance) : Instance :=
  { i with entries := i.entries.map fun e => if e.isLive then { e with state := .cut } else e }

/-- The channels of an instance's FADING entries become FREE, their levels as the last step left them (R56 step 2). -/
def State.releaseFades (s : State) (i : Instance) : State :=
  s.mapChannels fun c ch => if i.fades c then { ch with owner := none } else ch

/-- An instance leaves the Active List (R56 step 3). -/
def State.removeInstance (s : State) (i : Instance) : State :=
  { s with active := s.active.filter fun j => decide (j.id ≠ i.id) }

/-- An instance is stopped: its fades let their channels go, it leaves the list, and CUE_DONE is queued (R56). -/
def State.stopInstance (s : State) (i : Instance) : State :=
  ((s.releaseFades i).removeInstance i).report (i.cutAll.doneReport .stopped)

/-! ## The fade-clock expiry (R46) -/

/-- The level of a fade at step k of n: truncated toward zero from the start level (R47). -/
def fadeLevel (start target k n : Nat) : Nat :=
  ((start : Int) + Int.tdiv (((target : Int) - start) * k) n).toNat

/-- The FADING entry for a channel with its start level and step, if any. -/
def fadingOn (active : List Instance) (c : ChannelNo) : Option (CueEntry × Nat × Nat) :=
  active.findSome? fun i => i.entries.findSome? fun e =>
    match e.state with
    | .fading start step => if e.entry.channel = c then some (e.entry, start, step) else none
    | _ => none

/-- One FADING entry takes a step; at its final step it is DONE (R47). -/
def EntryCopy.stepped (e : EntryCopy) : EntryCopy :=
  match e.state with
  | .fading start step =>
    { e with state := if e.entry.fade ≤ step + 1 then .done else .fading start (step + 1) }
  | _ => e

/-- A channel under a FADING entry takes the level of the entry's next step; the final step frees it (R47). -/
def State.stepChannel (s : State) (c : ChannelNo) (ch : Channel) : Channel :=
  match fadingOn s.active c with
  | some (e, start, step) =>
    s.recoded { ch with
      level := fadeLevel start e.target (step + 1) e.fade
      owner := if e.fade ≤ step + 1 then none else ch.owner }
  | none => ch

/-- Step 2 of an expiry: every FADING entry takes one step (R47). -/
def State.stepFades (s : State) : State :=
  (s.mapChannels s.stepChannel).mapActive fun i => { i with entries := i.entries.map EntryCopy.stepped }

/-- Step 3 of an expiry: the `elapsed` of every instance advances (R46). -/
def State.advanceElapsed (s : State) : State := s.mapActive fun i => { i with elapsed := i.elapsed + 1 }

/-- Step 4 of an expiry on one channel: of the entries whose delay ends there, the newest instance's starts and every other
becomes TAKEN (R48). -/
def State.startDueOn (s : State) (c : ChannelNo) : State :=
  match (s.active.filter fun i => (i.dueOn c).isSome).getLast? with
  | none => s
  | some newest =>
    match newest.dueOn c with
    | none => s
    | some e => (s.mapActive fun i => if i.id = newest.id then i else i.loseDue c).startEntry newest.id e

/-- Step 4 of an expiry: entries for different channels start independently (R48). -/
def State.startDue (s : State) : State := (List.finRange 16).foldl State.startDueOn s

/-- The Follow List less its head (R73 step 1). -/
def State.dropFollow (s : State) : State := { s with follows := s.follows.tail }

/-- One follow start is removed from the head of the list and started (R73). -/
def State.serveOne (s : State) : State :=
  match s.follows with
  | [] => s
  | c :: _ => s.dropFollow.startReported c .follow

/-- `n` follow starts are served, one at a time (R73). -/
def State.serve : Nat → State → State
  | 0, s => s
  | n + 1, s => State.serve n s.serveOne

/-- Step 6 of an expiry: the follow starts present when service begins are served (R73). -/
def State.serveAll (s : State) : State := State.serve s.follows.length s

/-- Step 1 of an expiry: the uptime counter advances (R46, R49), the fade clock runs on to its next expiry (R45). -/
def State.tick (s : State) : State :=
  { s.advanceTo s.fadeDue with fadeDue := s.fadeDue + Config.fadePeriod, uptime := s.uptime + 1 }

/-- Steps 2 to 5 of an expiry, made in ACTIVE and ECONOMY alone (R46). -/
def State.cueWork (s : State) : State :=
  if s.profile.running then s.stepFades.advanceElapsed.startDue.sweep else s

/-- A fade-clock expiry (R46, R49, R73, R74). -/
def State.expiry (s : State) : State := s.tick.cueWork.serveAll

end Sys2Proof.Machine
end

