-- ==== Sys2Proof/Machine/Retained.lean ====
section
/-!
DEFINITION. The Retained Store: the generation map (R97), the selection of a generation to load (R109), snapshots (R103),
programs (R102, R105, R106, R107) and the loading of content into volatile state (R111, R112, R113, R129, R130).
-/
namespace Sys2Proof.Machine

/-- The states of a kind's generations in the map (R97). -/
def GenMap.ofKind (m : GenMap) : RecordKind → Vector GenState 4
  | .curves => m.curves
  | .trims => m.trims
  | .startup => m.startup
  | .label => m.label

/-- The map with one place changed (R97). -/
def GenMap.setPlace (m : GenMap) (k : RecordKind) (g : GenIdx) (st : GenState) : GenMap :=
  match k with
  | .curves => { m with curves := m.curves.set g st }
  | .trims => { m with trims := m.trims.set g st }
  | .startup => { m with startup := m.startup.set g st }
  | .label => { m with label := m.label.set g st }

/-- A generation is used when it is GOOD or BAD (R97). -/
def GenState.used : GenState → Bool
  | .good => true
  | .bad => true
  | _ => false

/-- The used count of a kind (R116). -/
def GenMap.usedCount (m : GenMap) (k : RecordKind) : Nat := ((m.ofKind k).toList.filter GenState.used).length

/-- The lowest BLANK generation of a kind (R101). -/
def GenMap.lowestBlank (m : GenMap) (k : RecordKind) : Option GenIdx :=
  (List.finRange 4).find? fun g => decide ((m.ofKind k)[g] = .blank)

/-- The newest GOOD generation of a kind (R109). -/
def GenMap.newestGood (m : GenMap) (k : RecordKind) : Option GenIdx :=
  (List.finRange 4).reverse.find? fun g => decide ((m.ofKind k)[g] = .good)

/-- The number reported for the generation loaded: 0 for the defaults (R109). -/
def loadedNumber : Option GenIdx → Nat
  | none => 0
  | some g => genNumber g

/-- The fallback flag: a BAD generation is newer than the generation loaded, the defaults counting as generation 0 (R109). -/
def GenMap.fallback (m : GenMap) (k : RecordKind) : Bool :=
  (List.finRange 4).any fun g =>
    decide ((m.ofKind k)[g] = .bad) && decide (loadedNumber (m.newestGood k) < genNumber g)

/-- What the START report carries for a kind (R131). -/
def GenMap.note (m : GenMap) (k : RecordKind) : LoadNote :=
  { generation := loadedNumber (m.newestGood k), fallback := m.fallback k }

/-- The state in which a place of the array is found (R96). -/
def placeState {α : Type} : Place α → GenState
  | .blank => .blank
  | .good _ => .good
  | .bad => .bad

/-- The generation map read from the array (R129). -/
def RetainedArray.found (a : RetainedArray) : GenMap :=
  { curves := Vector.ofFn fun g => placeState a.curves[g]
    trims := Vector.ofFn fun g => placeState a.trims[g]
    startup := Vector.ofFn fun g => placeState a.startup[g]
    label := Vector.ofFn fun g => placeState a.label[g] }

/-- The content of a place, if it is found GOOD. -/
def placeContent {α : Type} : Place α → Option α
  | .good x => some x
  | _ => none

/-! ## What is loaded: the newest GOOD generation's content, or the kind's defaults (R109) -/

/-- The curves that a load gives slots 1 to 7. A map that shows GOOD what the array does not hold: DEDUCED (log 20). -/
def State.loadedCurves (s : State) : Vector Curve 7 :=
  match (s.map.newestGood .curves).bind fun g => placeContent s.array.curves[g] with
  | some c => c
  | none => Vector.replicate 7 linearCurve

/-- The trims that a load gives the stored trims. -/
def State.loadedTrims (s : State) : Vector Int 16 :=
  match (s.map.newestGood .trims).bind fun g => placeContent s.array.trims[g] with
  | some t => t
  | none => Vector.replicate 16 0

/-- The bytes that a load gives the volatile label. -/
def State.loadedLabel (s : State) : Vector Byte 16 :=
  match (s.map.newestGood .label).bind fun g => placeContent s.array.label[g] with
  | some l => l
  | none => spaces

/-- The scene of the newest GOOD STARTUP generation; the kind has no defaults. -/
def State.loadedScene (s : State) : Option Scene :=
  (s.map.newestGood .startup).bind fun g => placeContent s.array.startup[g]

/-- Slots 1 to 7 replaced whole, and the drive codes of the channels bound to them recomputed (R111). -/
def State.applyCurves (s : State) (c : Vector Curve 7) : State :=
  { s with curves := c }.recode fun ch => decide (ch.slot ≠ 0)

/-- Every stored trim written. -/
def State.writeTrims (s : State) (t : Vector Int 16) : State := s.mapChannels fun c ch => { ch with storedTrim := t[c] }

/-- Every stored trim written, and the drive codes of the channels whose source is STORED recomputed (R106, R112). -/
def State.applyTrims (s : State) (t : Vector Int 16) : State :=
  (s.writeTrims t).recode fun ch => decide (ch.source = .stored)

/-- Each channel takes the binding and trim source of a scene (R130). -/
def State.bindScene (s : State) (scene : Scene) : State :=
  s.mapChannels fun c ch => { ch with slot := scene.channels[c].slot, source := scene.channels[c].source }

/-- Bindings, trim sources, classes and profile of a scene, and every drive code recomputed (R130). -/
def State.applyScene (s : State) (scene : Scene) : State :=
  { s.bindScene scene with
    profile := scene.profile.toProfile
    activeClass := scene.activeClass
    economyClass := scene.economyClass }.recodeAll

/-! ## Programs -/

/-- The snapshot of a kind, from volatile state as it stands (R103). A STARTUP program also takes its fade time and profile from
the request. -/
def State.snapshot (s : State) (k : RecordKind) (fade : Nat) (profile : RunProfile) : Content :=
  match k with
  | .curves => .curves s.curves
  | .trims => .trims (Vector.ofFn fun c => s.channels[c].overrideTrim)
  | .startup => .startup
      { channels := Vector.ofFn fun c =>
          { level := s.channels[c].level, slot := s.channels[c].slot, source := s.channels[c].source }
        fade := fade
        profile := profile
        activeClass := s.activeClass
        economyClass := s.economyClass }
  | .label => .label s.label

/-- The kind of a snapshot. -/
def Content.kind : Content → RecordKind
  | .curves _ => .curves
  | .trims _ => .trims
  | .startup _ => .startup
  | .label _ => .label

/-- The array with a generation left so that it is found GOOD with the content written (R96). -/
def RetainedArray.putGood (a : RetainedArray) (g : GenIdx) : Content → RetainedArray
  | .curves c => { a with curves := a.curves.set g (.good c) }
  | .trims t => { a with trims := a.trims.set g (.good t) }
  | .startup x => { a with startup := a.startup.set g (.good x) }
  | .label l => { a with label := a.label.set g (.good l) }

/-- The array with a generation left so that it is found BAD (R96). -/
def RetainedArray.putBad (a : RetainedArray) (g : GenIdx) : RecordKind → RetainedArray
  | .curves => { a with curves := a.curves.set g .bad }
  | .trims => { a with trims := a.trims.set g .bad }
  | .startup => { a with startup := a.startup.set g .bad }
  | .label => { a with label := a.label.set g .bad }

/-- The generation as a program's outcome leaves it in the array (R96, R105). -/
def RetainedArray.put (a : RetainedArray) (p : Program) : ReadBack → RetainedArray
  | .good => a.putGood p.generation p.snapshot
  | .bad => a.putBad p.generation p.snapshot.kind

/-- The state of a generation after a program's outcome (R97). -/
def outcomeState : ReadBack → GenState
  | .good => .good
  | .bad => .bad

/-- The acceptance of a program: the snapshot is taken, the generation is WRITING, the record is set (R102). -/
def State.beginProgram (s : State) (k : RecordKind) (g : GenIdx) (fade : Nat) (profile : RunProfile) : State :=
  { s with
    map := s.map.setPlace k g .writing
    inFlight := some { generation := g, snapshot := s.snapshot k fade profile, acceptedAt := s.clock } }

/-- The effect of a GOOD TRIMS program on the stored trims (R106); no other program changes volatile state (R105). -/
def State.afterProgram (s : State) (p : Program) : ReadBack → State
  | .good =>
    match p.snapshot with
    | .trims t => s.applyTrims t
    | _ => s
  | .bad => s

/-- The program time is over and the array and the map show the outcome (R96, R104, R105 step 1). -/
def State.settleProgram (s : State) (p : Program) (outcome : ReadBack) : State :=
  { s.advanceTo (p.acceptedAt + Config.programTime) with
    array := s.array.put p outcome
    map := s.map.setPlace p.snapshot.kind p.generation (outcomeState outcome) }

/-- The in-flight program record becomes none (R105 step 4). -/
def State.clearProgram (s : State) : State := { s with inFlight := none }

/-- The completion of the program in flight (R105). -/
def State.endProgram (s : State) (p : Program) (outcome : ReadBack) : State :=
  (((s.settleProgram p outcome).report (.programDone p.snapshot.kind p.generation outcome)).afterProgram p outcome).clearProgram

/-- A program in flight is cut: its generation is left so that it is found BAD (R107). DEDUCED (log 10). -/
def State.cutProgram (s : State) : State :=
  match s.inFlight with
  | none => s
  | some p => { s with array := s.array.putBad p.generation p.snapshot.kind }

end Sys2Proof.Machine
end

