-- ==== Sys2Proof/Machine/Link.lean ====
section
/-!
DEFINITION. The admission of a well-formed request (R161): repeats (R159), OVERRUN, execution and the Last Reply Record (R158).
-/
namespace Sys2Proof.Machine

/-- What the Request Decoder and the owning block do with a request's payload: the state after it, and the reply. -/
abbrev Handler := List Byte → State → State × Reply

/-- A refused request changes nothing and its reply carries the status alone (R167). -/
def refuse (s : State) (why : Status) : State × Reply := (s, { status := why, body := [] })

/-- An accepted request with its reply's payload. -/
def accept (s : State) (body : List Byte) : State × Reply := (s, { status := .ok, body := body })

/-- A request whose sequence and check both equal those of the Last Reply Record, with the stored reply (R159). -/
def State.repeatOf (s : State) (seq : Byte) (check : Half) : Option Frame :=
  match s.lastReply with
  | some r => if r.seq = seq ∧ r.check = check then some r.reply else none
  | none => none

/-- A reply is recorded and offered: the Last Reply Record is replaced before the reply enters the outbound queue (R158). -/
def State.answer (s : State) (kind : RequestKind) (seq : Byte) (payload : List Byte) (r : Reply) : State :=
  { s with lastReply := some { seq := seq, check := frameCheck seq kind.code payload, reply := replyFrame seq kind r } }.offer
    (replyFrame seq kind r)

/-- The execution of a request: its whole effect, then its reply (R156, R161). -/
def State.execute (s : State) (kind : RequestKind) (run : Handler) (seq : Byte) (payload : List Byte) : State :=
  (run payload s).1.answer kind seq payload (run payload s).2

/-- The admission of a well-formed request (R161): a repeat is answered from the record, a request that meets a frame in
transmission is answered OVERRUN, any other is executed. -/
def State.admission (s : State) (kind : RequestKind) (run : Handler) (seq : Byte) (payload : List Byte) : State :=
  match s.repeatOf seq (frameCheck seq kind.code payload) with
  | some stored => s.offer stored
  | none =>
    if s.sending.isSome then s.offer (rejectFrame seq .overrun)
    else s.execute kind run seq payload

/-- A request frame with a right check completes (R155 cases 2 and 4): the receiver is in HUNT after it; in the START phase it is
answered NOT_READY, otherwise it is admitted. -/
def State.takeRequest (s : State) (kind : RequestKind) (run : Handler) (seq : Byte) (payload : List Byte) : State :=
  if s.phase = .start then s.toHunt.offer (rejectFrame seq .notReady)
  else s.toHunt.admission kind run seq payload

/-- The step of a request row: the completion of the request's frame (log 1). While no character is received the frame is lost
(R123, R162). A payload that fits no frame is no command (R150). -/
def requestStep (kind : RequestKind) (run : Handler) (seq : Byte) (payload : List Byte) (s : State) :
    Host.Outcome State Fault Refusal :=
  if payload.length ≤ Config.maxPayload then
    .next (if s.deaf then s else s.takeRequest kind run seq payload)
  else .refused .illFormed

end Sys2Proof.Machine
end

