-- ==== Sys2Proof/Machine/Events.lean ====
section
/-!
DEFINITION. The events of the Cue Engine, the Retained Store, the Start-up Loader and the pins: FADE_CLOCK_EXPIRY,
GO_FALLING_EDGE, PROGRAM_COMPLETION, LOAD_COMPLETION, RESET_CONDITION, RESET_BASE, OE_CHANGE.
An event that cannot take place in the state leaves it as it is (log 2).
-/
namespace Sys2Proof.Machine

/-- The step of FADE_CLOCK_EXPIRY (R46): none takes place while the part is held in reset (R123). -/
def execFadeClockExpiry (s : State) : Host.Outcome State Fault Refusal :=
  .next (if s.isHeld then s else s.expiry)

/-- The Arm Slot after its cue fired: empty in mode ONCE, kept in mode REPEAT (R68 step 4). -/
def armedAfter (a : Armed) : Option Armed :=
  match a.mode with
  | .once => none
  | .repeats => some a

/-- The Arm Slot takes a content. -/
def State.setArmed (s : State) (o : Option Armed) : State := { s with armed := o }

/-- A taken edge with a cue armed: the cue is fired, or the refusal is reported and the arm kept (R68, R69). -/
def State.fire (s : State) (a : Armed) : State :=
  match s.startRefusal a.cue with
  | none => (s.startReported a.cue .goLine).setArmed (armedAfter a)
  | some _ => s.startReported a.cue .goLine

/-- The filter's time is set to the edge's own moment (R67). -/
def State.markEdge (s : State) : State := { s with goEdge := some s.clock }

/-- A taken edge: the filter's time is set, and the armed cue, if any, is fired (R67). -/
def State.takeEdge (s : State) : State :=
  match s.armed with
  | none => s.markEdge
  | some a => s.markEdge.fire a

/-- The step of GO_FALLING_EDGE (R67): an edge within the debounce interval, or before the part is READY, is not taken. -/
def execGoFallingEdge (s : State) : Host.Outcome State Fault Refusal :=
  .next (if s.edgeTaken then s.takeEdge else s)

/-- The step of PROGRAM_COMPLETION (R105): none takes place with no program in flight, or while the part is held in reset (R123). -/
def execProgramCompletion (outcome : ReadBack) (s : State) : Host.Outcome State Fault Refusal :=
  .next (if s.isHeld then s
    else
      match s.inFlight with
      | none => s
      | some p => s.endProgram p outcome)

/-- The generation map and the identity, read from the array and IDENT (R96, R98, R129). -/
def State.readArray (s : State) : State := { s with map := s.array.found, serial := s.ident.getD 0 }

/-- Slots 1 to 7 and the label take what is loaded (R129). -/
def State.takeLoaded (s : State) : State := { s with curves := s.loadedCurves, label := s.loadedLabel }

/-- Step 1 of load completion: the map, the identity, the curves, the stored trims and the label from the array; every drive
code recomputed (R129). -/
def State.loadArray (s : State) : State := (s.readArray.takeLoaded.writeTrims s.readArray.loadedTrims).recodeAll

/-- Step 2 of load completion: a GOOD STARTUP generation is applied (R130). -/
def State.applyLoaded (s : State) : State :=
  match s.loadedScene with
  | some scene => s.applyScene scene
  | none => s

/-- The START report's body (R131). -/
def State.startBody (s : State) : ReportBody :=
  .start s.cause (s.map.note .curves) (s.map.note .trims) (s.map.note .startup) (s.map.note .label)

/-- Step 4 of load completion: the start-up instance of a GOOD STARTUP generation (R132). -/
def State.playLoaded (s : State) : State :=
  match s.loadedScene with
  | some scene => s.startScene scene
  | none => s

/-- Step 5 of load completion (R133). -/
def State.becomeReady (s : State) : State := { s with phase := .ready }

/-- Load completion (R129 to R133). -/
def State.load (s : State) : State :=
  let s2 := s.loadArray.applyLoaded
  (s2.report s2.startBody).playLoaded.becomeReady

/-- The step of LOAD_COMPLETION: the one event at which the START phase ends (R127). -/
def execLoadCompletion (s : State) : Host.Outcome State Fault Refusal :=
  .next (if s.phase = .start then s.load else s)

/-- The cause that a reset condition records, when one may already hold the part: a supply that failed gives POWER, whatever
RESETN does (R122). DEDUCED (log 12). -/
def heldCause (s : State) (c : HoldCause) : ResetCause :=
  match s.phase, c with
  | .held .power, _ => .power
  | _, .power => .power
  | _, .pin => .pin

/-- The step of RESET_CONDITION (R123): a program in flight is cut, a frame in transmission is cut off, the restart of an accepted
RESTART does not follow (R122). The map and the in-flight record are lost later, at the reset base (R107). -/
def execResetCondition (cause : HoldCause) (s : State) : Host.Outcome State Fault Refusal :=
  .next { s.cutProgram with phase := .held (heldCause s cause), sending := none, restarting := false }

/-- The reset base (R126): every volatile item takes its base value; the array, IDENT and the pins stand as they are. -/
def State.base (s : State) (cause : ResetCause) (rate : BitRate) : State :=
  { State.reset with
    array := s.array
    ident := s.ident
    cause := cause
    bitRate := rate
    oe := s.oe
    rxd := s.rxd
    breakDetector := match s.rxd with
      | .high => .idle
      | .low => .timing s.clock
    clock := s.clock
    fadeDue := s.clock + Config.fadePeriod
    pending := s.pending }

/-- The step of RESET_BASE: it ends a reset condition, or follows the sent reply of a RESTART (R122, R125). -/
def execResetBase (rate1 rate0 : PinLevel) (s : State) : Host.Outcome State Fault Refusal :=
  .next (match s.phase with
    | .held cause => s.base cause (strapRate rate1 rate0)
    | _ => s)

/-- The step of OE_CHANGE: OE acts on the delivered codes alone (R10, R90). -/
def execOeChange (level : PinLevel) (s : State) : Host.Outcome State Fault Refusal :=
  .next { s with oe := level }

end Sys2Proof.Machine
end

