-- ==== Sys2Proof/Machine/ChannelRequests.lean ====
section
/-!
DEFINITION. The requests on curves and channels (1.5, 1.6, 3.6, 10.4): CURVE_WRITE, CURVE_READ, BIND, TRIM_SET, TRIM_SOURCE,
CHANNEL_READ, SET_LEVEL.
-/
namespace Sys2Proof.Machine

/-- Slot `k` (1 to 7) takes a curve; the drive codes of the channels bound to it are recomputed (R15). -/
def State.writeCurve (s : State) (k : SlotNo) (c : Curve) : State :=
  { s with curves := s.curves.setIfInBounds (k.val - 1) c }.recode fun ch => decide (ch.slot = k)

/-- CURVE_WRITE of a slot in range (R15): BAD_CURVE, READ_ONLY, IN_USE, in that order. -/
def curveWrite (k : SlotNo) (c : Curve) (s : State) : State × Reply :=
  if !validCurve c then refuse s .badCurve
  else if k = 0 then refuse s .readOnly
  else if s.ownedOn (fun k' => decide (k' = k)) then refuse s .inUse
  else accept (s.writeCurve k c) []

/-- CURVE_WRITE (R174). -/
def handleCurveWrite : Handler := fun payload s =>
  match payload with
  | slot :: count :: rest =>
    if rest.length ≠ 4 * count.toNat then refuse s .badLength
    else
      match slot? slot with
      | none => refuse s .range
      | some k => curveWrite k (points rest) s
  | _ => refuse s .badLength

/-- The four bytes of a curve point (R190). -/
def pointBytes (p : Point) : List Byte := bytes16 p.input ++ bytes16 p.output

/-- CURVE_READ (R16, R174). -/
def handleCurveRead : Handler := fun payload s =>
  match payload with
  | [b] =>
    match slot? b with
    | some k => accept s (byteOf (s.curveAt k).length :: ((s.curveAt k).map pointBytes).flatten)
    | none => refuse s .range
  | _ => refuse s .badLength

/-- Some channel that the mask selects is OWNED (R11). -/
def State.ownedIn (s : State) (mask : Half) : Bool :=
  (List.finRange 16).any fun c => selects mask c && s.channels[c].owned

/-- Each selected channel record changed, and the rest left (R167). -/
def State.mapSelected (s : State) (mask : Half) (f : Channel → Channel) : State :=
  s.mapChannels fun c ch => if selects mask c then f ch else ch

/-- BIND of a mask and slot in range (R11). -/
def bindChannels (mask : Half) (k : SlotNo) (s : State) : State × Reply :=
  if s.ownedIn mask then refuse s .inUse
  else accept (s.mapSelected mask fun ch => s.recoded { ch with slot := k }) []

/-- BIND (R175). -/
def handleBind : Handler := fun payload s =>
  match payload with
  | [m1, m0, b] =>
    match mask? m1 m0, slot? b with
    | some mask, some k => bindChannels mask k s
    | _, _ => refuse s .range
  | _ => refuse s .badLength

/-- TRIM_SET of a mask and trim in range: channels whose source is STORED keep their drive codes (R12). -/
def trimSet (mask : Half) (trim : Int) (s : State) : State × Reply :=
  accept (s.mapSelected mask fun ch =>
    let ch' := { ch with overrideTrim := trim }
    match ch.source with
    | .override => s.recoded ch'
    | .stored => ch') []

/-- TRIM_SET (R176). -/
def handleTrimSet : Handler := fun payload s =>
  match payload with
  | [m1, m0, t1, t0] =>
    match mask? m1 m0, trim? t1 t0 with
    | some mask, some trim => trimSet mask trim s
    | _, _ => refuse s .range
  | _ => refuse s .badLength

/-- TRIM_SOURCE of a mask and source in range (R13). -/
def setTrimSource (mask : Half) (source : TrimSource) (s : State) : State × Reply :=
  accept (s.mapSelected mask fun ch => s.recoded { ch with source := source }) []

/-- TRIM_SOURCE (R176). -/
def handleTrimSource : Handler := fun payload s =>
  match payload with
  | [m1, m0, b] =>
    match mask? m1 m0, trimSource? b with
    | some mask, some source => setTrimSource mask source s
    | _, _ => refuse s .range
  | _ => refuse s .badLength

/-- The owned byte and the owner id of CHANNEL_READ (R190). -/
def ownerBytes : Option Byte → List Byte
  | none => [0, 0]
  | some id => [1, id]

/-- The 12 bytes of the CHANNEL_READ reply (R177, R190). -/
def channelBytes (ch : Channel) : List Byte :=
  bytes16 ch.level ++ ownerBytes ch.owner ++ [byteOf ch.slot.val, ch.source.code] ++ bytesSigned16 ch.overrideTrim ++
  bytesSigned16 ch.storedTrim ++ bytes16 ch.driveCode

/-- CHANNEL_READ (R14, R177). -/
def handleChannelRead : Handler := fun payload s =>
  match payload with
  | [b] =>
    match channel? b with
    | some c => accept s (channelBytes s.channels[c])
    | none => refuse s .range
  | _ => refuse s .badLength

/-- SET_LEVEL of a mask and level in range: the levels are written, the fades on them are OVERRIDDEN, and the sweep runs (R54). -/
def setLevel (mask : Half) (level : Nat) (s : State) : State × Reply :=
  accept
    ((s.mapSelected mask fun ch => s.recoded { ch with level := level, owner := none }).mapActive fun i =>
      i.endFades (fun c => selects mask c) .overridden).sweep []

/-- SET_LEVEL (R178). -/
def handleSetLevel : Handler := fun payload s =>
  match payload with
  | [m1, m0, l1, l0] =>
    match mask? m1 m0, level? l1 l0 with
    | some mask, some level => setLevel mask level s
    | _, _ => refuse s .range
  | _ => refuse s .badLength

/-- The step of CURVE_WRITE. -/
def execCurveWrite (seq : Byte) (payload : List Byte) (s : State) : Host.Outcome State Fault Refusal :=
  requestStep .curveWrite handleCurveWrite seq payload s

/-- The step of CURVE_READ. -/
def execCurveRead (seq : Byte) (payload : List Byte) (s : State) : Host.Outcome State Fault Refusal :=
  requestStep .curveRead handleCurveRead seq payload s

/-- The step of BIND. -/
def execBind (seq : Byte) (payload : List Byte) (s : State) : Host.Outcome State Fault Refusal :=
  requestStep .bind handleBind seq payload s

/-- The step of TRIM_SET. -/
def execTrimSet (seq : Byte) (payload : List Byte) (s : State) : Host.Outcome State Fault Refusal :=
  requestStep .trimSet handleTrimSet seq payload s

/-- The step of TRIM_SOURCE. -/
def execTrimSource (seq : Byte) (payload : List Byte) (s : State) : Host.Outcome State Fault Refusal :=
  requestStep .trimSource handleTrimSource seq payload s

/-- The step of CHANNEL_READ. -/
def execChannelRead (seq : Byte) (payload : List Byte) (s : State) : Host.Outcome State Fault Refusal :=
  requestStep .channelRead handleChannelRead seq payload s

/-- The step of SET_LEVEL. -/
def execSetLevel (seq : Byte) (payload : List Byte) (s : State) : Host.Outcome State Fault Refusal :=
  requestStep .setLevel handleSetLevel seq payload s

end Sys2Proof.Machine
end

