-- ==== Sys2Proof/Machine/CueRequests.lean ====
section
/-!
DEFINITION. The requests on cues and instances (chapters 2 to 4, 10.5): CUE_LOAD, CUE_READ, CUE_CLEAR, CUE_GO, CUE_ARM,
CUE_DISARM, CUE_STOP, CUE_STOP_ALL, ACTIVE_READ.
-/
namespace Sys2Proof.Machine

/-- No two entries name the same channel (R24). -/
def distinctChannels : List CueEntry → Bool
  | [] => true
  | e :: rest => !(rest.any fun e' => decide (e'.channel = e.channel)) && distinctChannels rest

/-- CUE_LOAD of fields in range: DUPLICATE, or the record is replaced whole (R26, R27). -/
def cueLoad (c : CueIdx) (r : CueRecord) (s : State) : State × Reply :=
  if !distinctChannels r.entries then refuse s .duplicate
  else accept { s with cues := s.cues.set c (some r) } []

/-- CUE_LOAD (R27, R179). -/
def handleCueLoad : Handler := fun payload s =>
  match payload with
  | cue :: fol :: count :: rest =>
    if rest.length ≠ 7 * count.toNat then refuse s .badLength
    else if count.toNat < 1 ∨ 16 < count.toNat then refuse s .range
    else
      match cue? cue, follow? fol, entries? rest with
      | some c, some f, some es => cueLoad c { entries := es, follow := f } s
      | _, _, _ => refuse s .range
  | _ => refuse s .badLength

/-- The seven bytes of a cue entry (R190). -/
def entryBytes (e : CueEntry) : List Byte :=
  byteOf e.channel.val :: bytes16 e.target ++ bytes16 e.fade ++ bytes16 e.delay

/-- The payload of a CUE_READ reply, which is that of the CUE_LOAD of the same content (R28, R190). -/
def recordBytes (c : CueIdx) (r : CueRecord) : List Byte :=
  [cueByte (some c), cueByte r.follow, byteOf r.entries.length] ++ (r.entries.map entryBytes).flatten

/-- CUE_READ (R28, R179). -/
def handleCueRead : Handler := fun payload s =>
  match payload with
  | [b] =>
    match cue? b with
    | none => refuse s .range
    | some c =>
      match s.cues[c] with
      | none => refuse s .empty
      | some r => accept s (recordBytes c r)
  | _ => refuse s .badLength

/-- The cue is in the Arm Slot, in either mode (R29). -/
def State.isArmed (s : State) (c : CueIdx) : Bool := decide (s.armed.map Armed.cue = some c)

/-- CUE_CLEAR (R29, R179). -/
def handleCueClear : Handler := fun payload s =>
  match payload with
  | [b] =>
    match cue? b with
    | none => refuse s .range
    | some c => if s.isArmed c then refuse s .inUse else accept { s with cues := s.cues.set c none } []
  | _ => refuse s .badLength

/-- A start by request, after the decoder's checks: the new id is replied, and no report marks the start (R40). -/
def cueGo (c : CueIdx) (s : State) : State × Reply :=
  match s.startRefusal c, s.cues[c] with
  | none, some r => accept (s.startCue c .request r) [s.issueId]
  | some why, _ => refuse s why
  | none, none => refuse s .empty

/-- CUE_GO (R40, R180): PROFILE comes from the decoder, before EMPTY (R87). -/
def handleCueGo : Handler := fun payload s =>
  match payload with
  | [b] =>
    match cue? b with
    | none => refuse s .range
    | some c => if !s.profile.running then refuse s .profile else cueGo c s
  | _ => refuse s .badLength

/-- CUE_ARM (R65, R181). -/
def handleCueArm : Handler := fun payload s =>
  match payload with
  | [b1, b0] =>
    match cue? b1, armMode? b0 with
    | some c, some m =>
      if s.cues[c] = none then refuse s .empty else accept { s with armed := some { cue := c, mode := m } } []
    | _, _ => refuse s .range
  | _ => refuse s .badLength

/-- CUE_DISARM (R66, R181). -/
def handleCueDisarm : Handler := fun payload s =>
  match payload with
  | [] => accept { s with armed := none } []
  | _ => refuse s .badLength

/-- CUE_STOP (R56, R182). -/
def handleCueStop : Handler := fun payload s =>
  match payload with
  | [id] =>
    match s.active.find? fun i => decide (i.id = id) with
    | none => refuse s .notFound
    | some i => accept (s.stopInstance i) []
  | _ => refuse s .badLength

/-- The Follow List is emptied with no report (R57). -/
def State.clearFollows (s : State) : State := { s with follows := [] }

/-- CUE_STOP_ALL (R57, R182). -/
def handleCueStopAll : Handler := fun payload s =>
  match payload with
  | [] => accept (s.active.foldl State.stopInstance s).clearFollows []
  | _ => refuse s .badLength

/-- The block of an instance in the ACTIVE_READ reply (R58, R190). -/
def instanceBytes (i : Instance) : List Byte :=
  [i.id, cueByte i.cue, i.source.code, byteOf i.entries.length] ++
  (i.entries.map fun e => [byteOf e.entry.channel.val, e.state.code]).flatten

/-- ACTIVE_READ (R58, R183). -/
def handleActiveRead : Handler := fun payload s =>
  match payload with
  | [] => accept s (byteOf s.active.length :: (s.active.map instanceBytes).flatten)
  | _ => refuse s .badLength

/-- The step of CUE_LOAD. -/
def execCueLoad (seq : Byte) (payload : List Byte) (s : State) : Host.Outcome State Fault Refusal :=
  requestStep .cueLoad handleCueLoad seq payload s

/-- The step of CUE_READ. -/
def execCueRead (seq : Byte) (payload : List Byte) (s : State) : Host.Outcome State Fault Refusal :=
  requestStep .cueRead handleCueRead seq payload s

/-- The step of CUE_CLEAR. -/
def execCueClear (seq : Byte) (payload : List Byte) (s : State) : Host.Outcome State Fault Refusal :=
  requestStep .cueClear handleCueClear seq payload s

/-- The step of CUE_GO. -/
def execCueGo (seq : Byte) (payload : List Byte) (s : State) : Host.Outcome State Fault Refusal :=
  requestStep .cueGo handleCueGo seq payload s

/-- The step of CUE_ARM. -/
def execCueArm (seq : Byte) (payload : List Byte) (s : State) : Host.Outcome State Fault Refusal :=
  requestStep .cueArm handleCueArm seq payload s

/-- The step of CUE_DISARM. -/
def execCueDisarm (seq : Byte) (payload : List Byte) (s : State) : Host.Outcome State Fault Refusal :=
  requestStep .cueDisarm handleCueDisarm seq payload s

/-- The step of CUE_STOP. -/
def execCueStop (seq : Byte) (payload : List Byte) (s : State) : Host.Outcome State Fault Refusal :=
  requestStep .cueStop handleCueStop seq payload s

/-- The step of CUE_STOP_ALL. -/
def execCueStopAll (seq : Byte) (payload : List Byte) (s : State) : Host.Outcome State Fault Refusal :=
  requestStep .cueStopAll handleCueStopAll seq payload s

/-- The step of ACTIVE_READ. -/
def execActiveRead (seq : Byte) (payload : List Byte) (s : State) : Host.Outcome State Fault Refusal :=
  requestStep .activeRead handleActiveRead seq payload s

end Sys2Proof.Machine
end

