-- ==== Sys2Proof/Machine/PartRequests.lean ====
section
/-!
DEFINITION. The requests on the part and its link (10.2): HELLO, STATUS, FETCH, RESTART.
-/
namespace Sys2Proof.Machine

/-- The identity that HELLO replies with: vendor code, part code, revision, serial number, protocol version, label (R169, R190). -/
def State.identity (s : State) : List Byte :=
  bytes16 0x52D4 ++ bytes16 0x0B16 ++ [1] ++ bytes32 s.serial ++ [1] ++ s.label.toList

/-- HELLO (R169). -/
def handleHello : Handler := fun payload s =>
  match payload with
  | [] => accept s s.identity
  | _ => refuse s .badLength

/-- The armed cue and its mode as STATUS returns them: 0 and NONE when the slot is empty (R170). -/
def armBytes : Option Armed → List Byte
  | none => [0, 0]
  | some a => [cueByte (some a.cue), a.mode.code]

/-- Store busy, in-flight kind and generation as STATUS returns them (R170). -/
def busyBytes : Option Program → List Byte
  | none => [0, 0, 0]
  | some p => [1, p.snapshot.kind.code, byteOf (genNumber p.generation)]

/-- The 18 bytes of the STATUS reply (R170, R190). -/
def State.summary (s : State) : List Byte :=
  [s.profile.code, s.heldFrom.code, byteOf s.activeClass.val, byteOf s.economyClass.val, levelCode s.oe,
    byteOf s.active.length] ++
  armBytes s.armed ++ [byteOf s.follows.length, byteOf s.reportCount] ++ busyBytes s.inFlight ++ [s.cause.code] ++
  bytes32 s.uptime

/-- STATUS (R170). -/
def handleStatus : Handler := fun payload s =>
  match payload with
  | [] => accept s s.summary
  | _ => refuse s .badLength

/-- The records of the Report Queue as bytes, oldest first, the OVERFLOW record last (R137, R191). -/
def State.queueBytes (s : State) : List (List Byte) := s.reports.map reportBytes ++ s.overflow.toList.map overflowBytes

/-- The queue less its first `m` records (R144). -/
def State.dropReports (s : State) (m : Nat) : State :=
  { s with
    reports := s.reports.drop m
    overflow := if s.reports.length < m then none else s.overflow }

/-- An accepted FETCH of maximum `m`: records leave from the head and are returned whole (R144). -/
def fetch (m : Nat) (s : State) : State × Reply :=
  let taken := s.queueBytes.take m
  accept (s.dropReports m) (byteOf taken.length :: taken.flatten)

/-- FETCH (R171). -/
def handleFetch : Handler := fun payload s =>
  match payload with
  | [b] =>
    match fetchMax? b with
    | some m => fetch m s
    | none => refuse s .range
  | _ => refuse s .badLength

/-- RESTART (R124, R172): the device reset follows once the reply has been sent (R125). -/
def handleRestart : Handler := fun payload s =>
  match payload with
  | [] => if s.inFlight.isSome then refuse s .busy else accept { s with restarting := true } []
  | _ => refuse s .badLength

/-- The step of HELLO. -/
def execHello (seq : Byte) (payload : List Byte) (s : State) : Host.Outcome State Fault Refusal :=
  requestStep .hello handleHello seq payload s

/-- The step of STATUS. -/
def execStatus (seq : Byte) (payload : List Byte) (s : State) : Host.Outcome State Fault Refusal :=
  requestStep .status handleStatus seq payload s

/-- The step of FETCH. -/
def execFetch (seq : Byte) (payload : List Byte) (s : State) : Host.Outcome State Fault Refusal :=
  requestStep .fetch handleFetch seq payload s

/-- The step of RESTART. -/
def execRestart (seq : Byte) (payload : List Byte) (s : State) : Host.Outcome State Fault Refusal :=
  requestStep .restart handleRestart seq payload s

end Sys2Proof.Machine
end

