-- ==== Sys2Proof/Machine/ProfileRequests.lean ====
section
/-!
DEFINITION. The requests on profiles and ceilings (chapter 5, 10.3): SET_PROFILE, SET_CEILING.
-/
namespace Sys2Proof.Machine

/-- `held_from` after a change to profile `p`: the running profile left, on entering HOLD from one (R83). -/
def State.heldFromAfter (s : State) (p : Profile) : RunProfile :=
  match p, s.profile with
  | .hold, .active => .active
  | .hold, .economy => .economy
  | _, _ => s.heldFrom

/-- SET_PROFILE of a profile that R87 does not refuse (R82, R83, R84). -/
def setProfile (p : Profile) (s : State) : State × Reply :=
  if p = s.profile then accept s []
  else accept { s with profile := p, heldFrom := s.heldFromAfter p }.recodeAll []

/-- SET_PROFILE (R173): HOLD is refused while STANDBY is in force (R87). -/
def handleSetProfile : Handler := fun payload s =>
  match payload with
  | [b] =>
    match profile? b with
    | some p => if p = .hold ∧ s.profile = .standby then refuse s .profile else setProfile p s
    | none => refuse s .range
  | _ => refuse s .badLength

/-- The state with a running profile's ceiling class written. -/
def State.writeClass (s : State) (p : RunProfile) (k : Fin 6) : State :=
  match p with
  | .active => { s with activeClass := k }
  | .economy => { s with economyClass := k }

/-- SET_CEILING of a profile and class in range: the drive codes are recomputed when that profile's ceiling is in force (R85). -/
def setCeiling (p : RunProfile) (k : Fin 6) (s : State) : State × Reply :=
  if s.ceilingProfile = some p then accept (s.writeClass p k).recodeAll []
  else accept (s.writeClass p k) []

/-- SET_CEILING (R85, R173). -/
def handleSetCeiling : Handler := fun payload s =>
  match payload with
  | [b1, b0] =>
    match runProfile? b1, class? b0 with
    | some p, some k => setCeiling p k s
    | _, _ => refuse s .range
  | _ => refuse s .badLength

/-- The step of SET_PROFILE. -/
def execSetProfile (seq : Byte) (payload : List Byte) (s : State) : Host.Outcome State Fault Refusal :=
  requestStep .setProfile handleSetProfile seq payload s

/-- The step of SET_CEILING. -/
def execSetCeiling (seq : Byte) (payload : List Byte) (s : State) : Host.Outcome State Fault Refusal :=
  requestStep .setCeiling handleSetCeiling seq payload s

end Sys2Proof.Machine
end

