-- ==== Sys2Proof/Machine/StoreRequests.lean ====
section
/-!
DEFINITION. The requests on the retained store (chapter 6, 10.6): STORE_STATUS, STORE_PROGRAM, STORE_LOAD by kind, LABEL_SET.
-/
namespace Sys2Proof.Machine

/-- The in-flight kind, generation and remaining time as STORE_STATUS returns them (R184). -/
def State.programBytes (s : State) : List Byte :=
  match s.inFlight with
  | none => [0, 0, 0]
  | some p => [p.snapshot.kind.code, byteOf (genNumber p.generation), byteOf (s.remaining p)]

/-- The states of a kind's generations 1 to 4. -/
def GenMap.kindBytes (m : GenMap) (k : RecordKind) : List Byte := (m.ofKind k).toList.map GenState.code

/-- The record kinds in the order the spec lists them (R116). -/
def recordKinds : List RecordKind := [.curves, .trims, .startup, .label]

/-- The 23 bytes of the STORE_STATUS reply (R184, R190). -/
def State.storeBytes (s : State) : List Byte :=
  (recordKinds.map s.map.kindBytes).flatten ++ recordKinds.map (fun k => byteOf (s.map.usedCount k)) ++ s.programBytes

/-- STORE_STATUS (R116, R184). -/
def handleStoreStatus : Handler := fun payload s =>
  match payload with
  | [] => accept s s.storeBytes
  | _ => refuse s .badLength

/-- STORE_PROGRAM of fields in range: BUSY, EXHAUSTED, STALE, or accepted (R101, R102). -/
def storeProgram (k : RecordKind) (g : GenIdx) (fade : Nat) (profile : RunProfile) (s : State) : State × Reply :=
  if s.inFlight.isSome then refuse s .busy
  else if s.map.usedCount k = 4 then refuse s .exhausted
  else if s.map.lowestBlank k ≠ some g then refuse s .stale
  else (s.beginProgram k g fade profile, { status := .accepted, body := [byteOf (genNumber g)] })

/-- STORE_PROGRAM (R101, R185): the first byte selects the length, 5 for STARTUP and 2 for every other value. The fade time and
profile given to the other kinds are not read (R103). -/
def handleStoreProgram : Handler := fun payload s =>
  match payload with
  | [b, g] =>
    match recordKind? b, generation? g with
    | some .startup, _ => refuse s .badLength
    | some k, some g => storeProgram k g 0 .active s
    | _, _ => refuse s .range
  | [b, g, f1, f0, p] =>
    match recordKind? b with
    | some .startup =>
      match generation? g, time? f1 f0, runProfile? p with
      | some g, some fade, some profile => storeProgram .startup g fade profile s
      | _, _, _ => refuse s .range
    | _ => refuse s .badLength
  | _ => refuse s .badLength

/-- The accepted reply of STORE_LOAD: the generation loaded, 0 for defaults (R110). -/
def acceptLoad (s : State) (g : Option GenIdx) : State × Reply := accept s [byteOf (loadedNumber g)]

/-- STORE_LOAD CURVES (R111). -/
def storeLoadCurves (s : State) : State × Reply :=
  if s.inFlight.isSome then refuse s .busy
  else if s.ownedOn (fun k => decide (k ≠ 0)) then refuse s .inUse
  else acceptLoad (s.applyCurves s.loadedCurves) (s.map.newestGood .curves)

/-- STORE_LOAD TRIMS (R112). -/
def storeLoadTrims (s : State) : State × Reply :=
  if s.inFlight.isSome then refuse s .busy
  else acceptLoad (s.applyTrims s.loadedTrims) (s.map.newestGood .trims)

/-- STORE_LOAD LABEL (R113). -/
def storeLoadLabel (s : State) : State × Reply :=
  if s.inFlight.isSome then refuse s .busy
  else acceptLoad { s with label := s.loadedLabel } (s.map.newestGood .label)

/-- STORE_LOAD STARTUP, the replay (R114, R115): PROFILE, BUSY, EMPTY, IN_USE, FULL, in that order. -/
def storeLoadStartup (s : State) : State × Reply :=
  if !s.profile.running then refuse s .profile
  else if s.inFlight.isSome then refuse s .busy
  else
    match s.loadedScene with
    | none => refuse s .empty
    | some scene =>
      if idHeld s.active 0 then refuse s .inUse
      else if Config.maxActive ≤ s.active.length then refuse s .full
      else acceptLoad (s.startScene scene) (s.map.newestGood .startup)

/-- A STORE_LOAD whose payload is the wrong length or names no record kind (R110, R186). -/
def refuseStoreLoad : Handler := fun payload s =>
  match payload with
  | [_] => refuse s .range
  | _ => refuse s .badLength

/-- STORE_LOAD (R110, R186). -/
def handleStoreLoad : Handler := fun payload s =>
  match payload with
  | [b] =>
    match recordKind? b with
    | some .curves => storeLoadCurves s
    | some .trims => storeLoadTrims s
    | some .startup => storeLoadStartup s
    | some .label => storeLoadLabel s
    | none => refuseStoreLoad payload s
  | _ => refuseStoreLoad payload s

/-- LABEL_SET (R99, R187). -/
def handleLabelSet : Handler := fun payload s =>
  if h : payload.length = 16 then accept { s with label := ⟨payload.toArray, by simpa using h⟩ } []
  else refuse s .badLength

/-- The step of STORE_STATUS. -/
def execStoreStatus (seq : Byte) (payload : List Byte) (s : State) : Host.Outcome State Fault Refusal :=
  requestStep .storeStatus handleStoreStatus seq payload s

/-- The step of STORE_PROGRAM. -/
def execStoreProgram (seq : Byte) (payload : List Byte) (s : State) : Host.Outcome State Fault Refusal :=
  requestStep .storeProgram handleStoreProgram seq payload s

/-- The step of STORE_LOAD with kind CURVES. -/
def execStoreLoadCurves (seq : Byte) (s : State) : Host.Outcome State Fault Refusal :=
  requestStep .storeLoad (fun _ => storeLoadCurves) seq [RecordKind.curves.code] s

/-- The step of STORE_LOAD with kind TRIMS. -/
def execStoreLoadTrims (seq : Byte) (s : State) : Host.Outcome State Fault Refusal :=
  requestStep .storeLoad (fun _ => storeLoadTrims) seq [RecordKind.trims.code] s

/-- The step of STORE_LOAD with kind LABEL. -/
def execStoreLoadLabel (seq : Byte) (s : State) : Host.Outcome State Fault Refusal :=
  requestStep .storeLoad (fun _ => storeLoadLabel) seq [RecordKind.label.code] s

/-- The step of STORE_LOAD with kind STARTUP. -/
def execStoreLoadStartup (seq : Byte) (s : State) : Host.Outcome State Fault Refusal :=
  requestStep .storeLoad (fun _ => storeLoadStartup) seq [RecordKind.startup.code] s

/-- The step of STORE_LOAD with a faulty payload. A payload that names a record kind is another row's command. -/
def execStoreLoadNoRecordKind (seq : Byte) (payload : List Byte) (s : State) : Host.Outcome State Fault Refusal :=
  match payload with
  | [b] =>
    match recordKind? b with
    | some _ => .refused .illFormed
    | none => requestStep .storeLoad refuseStoreLoad seq payload s
  | _ => requestStep .storeLoad refuseStoreLoad seq payload s

/-- The step of LABEL_SET. -/
def execLabelSet (seq : Byte) (payload : List Byte) (s : State) : Host.Outcome State Fault Refusal :=
  requestStep .labelSet handleLabelSet seq payload s

end Sys2Proof.Machine
end

