-- ==== Sys2Proof/Machine/Serial.lean ====
section
/-!
DEFINITION. The Link Port's own events (chapters 7 and 9): BYTE_RECEIVED, FRAMING_ERROR, INTER_BYTE_TIMEOUT, TRANSMISSION_END,
LINK_RESET, RXD_FALLS, RXD_RISES.
-/
namespace Sys2Proof.Machine

/-- The handler of each request kind: the Request Decoder and the owning block (chapter 10). -/
def handlerOf : RequestKind → Handler
  | .hello => handleHello
  | .status => handleStatus
  | .fetch => handleFetch
  | .restart => handleRestart
  | .setProfile => handleSetProfile
  | .setCeiling => handleSetCeiling
  | .curveWrite => handleCurveWrite
  | .curveRead => handleCurveRead
  | .bind => handleBind
  | .trimSet => handleTrimSet
  | .trimSource => handleTrimSource
  | .channelRead => handleChannelRead
  | .setLevel => handleSetLevel
  | .cueLoad => handleCueLoad
  | .cueRead => handleCueRead
  | .cueClear => handleCueClear
  | .cueGo => handleCueGo
  | .cueArm => handleCueArm
  | .cueDisarm => handleCueDisarm
  | .cueStop => handleCueStop
  | .cueStopAll => handleCueStopAll
  | .activeRead => handleActiveRead
  | .storeStatus => handleStoreStatus
  | .storeProgram => handleStoreProgram
  | .storeLoad => handleStoreLoad
  | .labelSet => handleLabelSet

/-- The receiver in a state other than HUNT, its inter-byte timer restarted by the byte just taken (R152). -/
def State.receiving (s : State) (r : Receiver) : State := { s with receiver := r, interByte := some s.clock }

/-- A complete frame is judged; the first case that applies decides (R155). The receiver is in HUNT after it. -/
def State.judge (s : State) (seq kind : Byte) (payload : List Byte) (check : Half) : State :=
  if check ≠ frameCheck seq kind payload then s.toHunt.offer (rejectFrame seq .badCheck)
  else if s.phase = .start then s.toHunt.offer (rejectFrame seq .notReady)
  else
    match requestKind? kind with
    | none => s.toHunt.offer (rejectFrame seq .unknownKind)
    | some k => s.toHunt.admission k (handlerOf k) seq payload

/-- A byte taken by the receiver (R152, R154). -/
def State.takeByte (s : State) (b : Byte) : State :=
  match s.receiver with
  | .hunt => if b = 0xC3 then s.receiving .headerSeq else s
  | .headerSeq => s.receiving (.headerKind b)
  | .headerKind seq => s.receiving (.headerLength seq b)
  | .headerLength seq kind =>
    if Config.maxPayload < b.toNat then s.toHunt.offer (rejectFrame seq .tooLong)
    else if b.toNat = 0 then s.receiving (.checkHigh seq kind [])
    else s.receiving (.payload seq kind b.toNat [])
  | .payload seq kind length got =>
    if length ≤ got.length + 1 then s.receiving (.checkHigh seq kind (got ++ [b]))
    else s.receiving (.payload seq kind length (got ++ [b]))
  | .checkHigh seq kind got => s.receiving (.checkLow seq kind got b)
  | .checkLow seq kind got high => s.judge seq kind got (high ++ b)

/-- The step of BYTE_RECEIVED: a byte is lost while the part is held in reset (R123) or a break stands (R162). -/
def execByteReceived (b : Byte) (s : State) : Host.Outcome State Fault Refusal :=
  .next (if s.deaf then s else s.takeByte b)

/-- The step of FRAMING_ERROR: the character is discarded in every receiver state, and the inter-byte timer runs on (R149). -/
def execFramingError (s : State) : Host.Outcome State Fault Refusal := .next s

/-- The sequence that a REJECT TRUNCATED carries: the one received, or 0 (R157). -/
def Receiver.sequence : Receiver → Byte
  | .hunt => 0
  | .headerSeq => 0
  | .headerKind seq => seq
  | .headerLength seq _ => seq
  | .payload seq _ _ _ => seq
  | .checkHigh seq _ _ => seq
  | .checkLow seq _ _ _ => seq

/-- The block time at which the inter-byte timer ends (R153). -/
def State.timeoutAt (s : State) : Nat :=
  match s.interByte with
  | some t => t + Config.interByteTime
  | none => s.clock

/-- The step of INTER_BYTE_TIMEOUT (R153): in HUNT the timer is idle, and none takes place while the part is held in reset. -/
def execInterByteTimeout (s : State) : Host.Outcome State Fault Refusal :=
  .next (if s.isHeld || decide (s.receiver = .hunt) then s
    else ((s.advanceTo s.timeoutAt).toHunt).offer (rejectFrame s.receiver.sequence .truncated))

/-- The waiting frame, if any, enters transmission (R160). -/
def State.sendWaiting (s : State) : State :=
  { s with sending := s.waiting.map fun f => { frame := f, startedAt := s.clock }, waiting := none }

/-- The reset of an accepted RESTART begins: its reply has been sent whole, the waiting frame is not sent (R125). DEDUCED
(log 8). -/
def State.beginRestart (s : State) : State := { s with sending := none, restarting := false, phase := .held .restart }

/-- The end of a frame's transmission: the waiting frame, if any, enters transmission (R160). The end of a RESTART's reply begins
the reset of that RESTART, and the waiting frame is not sent (R125). -/
def State.endSending (s : State) (x : Sending) : State :=
  if s.restarting then (s.advanceTo (x.startedAt + sendTime s.bitRate x.frame)).beginRestart
  else (s.advanceTo (x.startedAt + sendTime s.bitRate x.frame)).sendWaiting

/-- The step of TRANSMISSION_END: none takes place with nothing in transmission, or while the part is held in reset (R123). -/
def execTransmissionEnd (s : State) : Host.Outcome State Fault Refusal :=
  .next (if s.isHeld then s
    else
      match s.sending with
      | none => s
      | some x => s.endSending x)

/-- The link reset: the receiver in HUNT, the partial frame dropped, the Last Reply Record cleared (R135, R165). -/
def State.resetLink (s : State) (since : Nat) : State :=
  { (s.advanceTo (since + Config.breakTime)).toHunt with lastReply := none, breakDetector := .latched }

/-- The step of LINK_RESET: it takes place when the detector has timed 20 ms low, and once for one break (R135, R162). -/
def execLinkReset (s : State) : Host.Outcome State Fault Refusal :=
  .next (if s.isHeld then s
    else
      match s.breakDetector with
      | .timing since => s.resetLink since
      | _ => s)

/-- The step of RXD_FALLS (R162). While the part is held in reset RXD is not sampled (R123): the pin alone changes. -/
def execRxdFalls (s : State) : Host.Outcome State Fault Refusal :=
  .next (if s.isHeld then { s with rxd := .low }
    else
      match s.breakDetector with
      | .idle => { s with rxd := .low, breakDetector := .timing s.clock }
      | _ => { s with rxd := .low })

/-- The step of RXD_RISES (R162). -/
def execRxdRises (s : State) : Host.Outcome State Fault Refusal :=
  .next (if s.isHeld then { s with rxd := .high } else { s with rxd := .high, breakDetector := .idle })

end Sys2Proof.Machine
end

