-- ==== Sys2Proof/Machine/Dispatch.lean ====
section
/-! DEFINITION. The step of each command: one arm per row of spec/opcode_table.json. -/
namespace Sys2Proof.Machine

def exec (i : Instr) (s : State) : Host.Outcome State Fault Refusal :=
  match i with
  | .hello seq payload => Sys2Proof.Machine.execHello seq payload s
  | .status seq payload => Sys2Proof.Machine.execStatus seq payload s
  | .fetch seq payload => Sys2Proof.Machine.execFetch seq payload s
  | .restart seq payload => Sys2Proof.Machine.execRestart seq payload s
  | .setProfile seq payload => Sys2Proof.Machine.execSetProfile seq payload s
  | .setCeiling seq payload => Sys2Proof.Machine.execSetCeiling seq payload s
  | .curveWrite seq payload => Sys2Proof.Machine.execCurveWrite seq payload s
  | .curveRead seq payload => Sys2Proof.Machine.execCurveRead seq payload s
  | .bind seq payload => Sys2Proof.Machine.execBind seq payload s
  | .trimSet seq payload => Sys2Proof.Machine.execTrimSet seq payload s
  | .trimSource seq payload => Sys2Proof.Machine.execTrimSource seq payload s
  | .channelRead seq payload => Sys2Proof.Machine.execChannelRead seq payload s
  | .setLevel seq payload => Sys2Proof.Machine.execSetLevel seq payload s
  | .cueLoad seq payload => Sys2Proof.Machine.execCueLoad seq payload s
  | .cueRead seq payload => Sys2Proof.Machine.execCueRead seq payload s
  | .cueClear seq payload => Sys2Proof.Machine.execCueClear seq payload s
  | .cueGo seq payload => Sys2Proof.Machine.execCueGo seq payload s
  | .cueArm seq payload => Sys2Proof.Machine.execCueArm seq payload s
  | .cueDisarm seq payload => Sys2Proof.Machine.execCueDisarm seq payload s
  | .cueStop seq payload => Sys2Proof.Machine.execCueStop seq payload s
  | .cueStopAll seq payload => Sys2Proof.Machine.execCueStopAll seq payload s
  | .activeRead seq payload => Sys2Proof.Machine.execActiveRead seq payload s
  | .storeStatus seq payload => Sys2Proof.Machine.execStoreStatus seq payload s
  | .storeProgram seq payload => Sys2Proof.Machine.execStoreProgram seq payload s
  | .storeLoadCurves seq => Sys2Proof.Machine.execStoreLoadCurves seq s
  | .storeLoadTrims seq => Sys2Proof.Machine.execStoreLoadTrims seq s
  | .storeLoadLabel seq => Sys2Proof.Machine.execStoreLoadLabel seq s
  | .storeLoadStartup seq => Sys2Proof.Machine.execStoreLoadStartup seq s
  | .storeLoadNoRecordKind seq payload => Sys2Proof.Machine.execStoreLoadNoRecordKind seq payload s
  | .labelSet seq payload => Sys2Proof.Machine.execLabelSet seq payload s
  | .fadeClockExpiry => Sys2Proof.Machine.execFadeClockExpiry s
  | .goFallingEdge => Sys2Proof.Machine.execGoFallingEdge s
  | .programCompletion outcome => Sys2Proof.Machine.execProgramCompletion outcome s
  | .loadCompletion => Sys2Proof.Machine.execLoadCompletion s
  | .resetCondition cause => Sys2Proof.Machine.execResetCondition cause s
  | .resetBase rate1 rate0 => Sys2Proof.Machine.execResetBase rate1 rate0 s
  | .oeChange level => Sys2Proof.Machine.execOeChange level s
  | .byteReceived b => Sys2Proof.Machine.execByteReceived b s
  | .framingError => Sys2Proof.Machine.execFramingError s
  | .interByteTimeout => Sys2Proof.Machine.execInterByteTimeout s
  | .transmissionEnd => Sys2Proof.Machine.execTransmissionEnd s
  | .linkReset => Sys2Proof.Machine.execLinkReset s
  | .rxdFalls => Sys2Proof.Machine.execRxdFalls s
  | .rxdRises => Sys2Proof.Machine.execRxdRises s

end Sys2Proof.Machine
end

