-- ==== Sys2Proof/WellFormed.lean ====
section
/-!
DEFINITION. Which terms of Instr are commands the part can be sent: a request's payload fits a frame (R150), and a
STORE_LOAD_NO_RECORD_KIND carries a payload that no other row stands for (R110, R186).
-/
namespace Sys2Proof

/-- A frame's length byte counts 0 to 240 payload bytes (R150). -/
def payloadFits (payload : List Byte) : Bool :=
  decide (payload.length ≤ Config.maxPayload)

/-- A STORE_LOAD payload of one byte whose value is a record kind's code (R188): CURVES 1, TRIMS 2, STARTUP 3, LABEL 4. -/
def namesRecordKind : List Byte → Bool
  | [b] => decide (1 ≤ b.toNat ∧ b.toNat ≤ 4)
  | _ => false

/-- The terms that stand for commands. -/
def Instr.wellFormed : Instr → Bool
  | .hello _ p => payloadFits p
  | .status _ p => payloadFits p
  | .fetch _ p => payloadFits p
  | .restart _ p => payloadFits p
  | .setProfile _ p => payloadFits p
  | .setCeiling _ p => payloadFits p
  | .curveWrite _ p => payloadFits p
  | .curveRead _ p => payloadFits p
  | .bind _ p => payloadFits p
  | .trimSet _ p => payloadFits p
  | .trimSource _ p => payloadFits p
  | .channelRead _ p => payloadFits p
  | .setLevel _ p => payloadFits p
  | .cueLoad _ p => payloadFits p
  | .cueRead _ p => payloadFits p
  | .cueClear _ p => payloadFits p
  | .cueGo _ p => payloadFits p
  | .cueArm _ p => payloadFits p
  | .cueDisarm _ p => payloadFits p
  | .cueStop _ p => payloadFits p
  | .cueStopAll _ p => payloadFits p
  | .activeRead _ p => payloadFits p
  | .storeStatus _ p => payloadFits p
  | .storeProgram _ p => payloadFits p
  | .storeLoadCurves _ => true
  | .storeLoadTrims _ => true
  | .storeLoadLabel _ => true
  | .storeLoadStartup _ => true
  | .storeLoadNoRecordKind _ p => payloadFits p && !namesRecordKind p
  | .labelSet _ p => payloadFits p
  | .fadeClockExpiry => true
  | .goFallingEdge => true
  | .programCompletion _ => true
  | .loadCompletion => true
  | .resetCondition _ => true
  | .resetBase _ _ => true
  | .oeChange _ => true
  | .byteReceived _ => true
  | .framingError => true
  | .interByteTimeout => true
  | .transmissionEnd => true
  | .linkReset => true
  | .rxdFalls => true
  | .rxdRises => true

end Sys2Proof
end

