-- ==== Sys2Proof/Safety.lean ====
section
/-!
DEFINITION. What claims about runs of the KL16 are stated in: the laws that the spec says hold of the state at the end of every
event, and the conditions under which a request is executed and what the link holds after it.
-/
namespace Sys2Proof.Machine

/-! ## Laws of the state -/

/-- Every drive code has the value that R7 and R8 give for the channel's present inputs (R9). -/
def CodesCurrent (s : State) : Prop := ∀ c : ChannelNo, s.channels[c].driveCode = s.codeOf s.channels[c]

/-- A trim from -255 to +255 (R1). -/
def TrimInRange (t : Int) : Prop := -255 ≤ t ∧ t ≤ 255

/-- A cue entry's fields lie in the ranges of R23. -/
def EntryInRange (e : CueEntry) : Prop := e.target ≤ 1000 ∧ e.fade ≤ 60000 ∧ e.delay ≤ 60000

/-- An entry copy's fields lie in the ranges of R37, and a FADING entry has not taken its final step. -/
def CopyInRange (e : EntryCopy) : Prop :=
  EntryInRange e.entry ∧
  match e.state with
  | .fading start step => start ≤ 1000 ∧ step < e.entry.fade
  | _ => True

/-- A scene's levels and fade time lie in the ranges of R95. -/
def SceneInRange (x : Scene) : Prop := (∀ c : ChannelNo, x.channels[c].level ≤ 1000) ∧ x.fade ≤ 60000

/-- The content of one generation lies in the ranges of R95, its curves valid under R4. -/
def ContentInRange : Content → Prop
  | .curves slots => ∀ k : Fin 7, validCurve slots[k] = true
  | .trims t => ∀ c : ChannelNo, TrimInRange t[c]
  | .startup x => SceneInRange x
  | .label _ => True

/-- The content of a place of the array, where it is found GOOD, lies in its ranges. -/
def PlaceInRange {α : Type} (p : Place α) (wrap : α → Content) : Prop :=
  match p with
  | .good x => ContentInRange (wrap x)
  | _ => True

/-- Every level, trim, curve, cue entry and retained content lies in the range the spec gives it (R2, R3, R23, R24, R37, R95). -/
structure RangesHold (s : State) : Prop where
  levels : ∀ c : ChannelNo, s.channels[c].level ≤ 1000
  overrideTrims : ∀ c : ChannelNo, TrimInRange s.channels[c].overrideTrim
  storedTrims : ∀ c : ChannelNo, TrimInRange s.channels[c].storedTrim
  curves : ∀ k : Fin 7, validCurve s.curves[k] = true
  cues : ∀ c : CueIdx, ∀ r ∈ s.cues[c], ∀ e ∈ r.entries, EntryInRange e
  copies : ∀ i ∈ s.active, ∀ e ∈ i.entries, CopyInRange e
  arrayCurves : ∀ g : GenIdx, PlaceInRange s.array.curves[g] .curves
  arrayTrims : ∀ g : GenIdx, PlaceInRange s.array.trims[g] .trims
  arrayStartup : ∀ g : GenIdx, PlaceInRange s.array.startup[g] .startup
  snapshot : ∀ p ∈ s.inFlight, ContentInRange p.snapshot

/-- A defined cue record holds 1 to 16 entries, no two naming the same channel (R24). -/
def RecordShaped (r : CueRecord) : Prop :=
  1 ≤ r.entries.length ∧ r.entries.length ≤ 16 ∧ (r.entries.map CueEntry.channel).Nodup

/-- An instance holds 1 to 16 entry copies, no two naming the same channel (R36, R24). -/
def InstanceShaped (i : Instance) : Prop :=
  1 ≤ i.entries.length ∧ i.entries.length ≤ 16 ∧ (i.entries.map fun e => e.entry.channel).Nodup

/-- The place of an entry copy in its instance's time: a WAITING entry's delay has not ended; a FADING entry has taken one step
at each expiry since its start (R46, R47). -/
def CopyTimed (elapsed : Nat) (e : EntryCopy) : Prop :=
  match e.state with
  | .waiting => elapsed < e.entry.delay
  | .fading _ step => elapsed = e.entry.delay + step
  | _ => True

/-- The laws of the Cue Engine at the end of every event. -/
structure EngineSound (s : State) : Prop where
  /-- At most four instances (R35). -/
  atMostFour : s.active.length ≤ 4
  /-- No two share an id (R35). -/
  idsDistinct : (s.active.map Instance.id).Nodup
  /-- Id 0 is issued to no instance but the start-up instance (R38). -/
  nextIdPositive : s.nextId ≠ 0
  /-- Cue records have the shape of R24. -/
  recordsShaped : ∀ c : CueIdx, ∀ r ∈ s.cues[c], RecordShaped r
  /-- Instances have the shape of R36. -/
  instancesShaped : ∀ i ∈ s.active, InstanceShaped i
  /-- A channel is owned exactly while its owner's entry for it is FADING (R42). -/
  ownership : ∀ (c : ChannelNo) (id : Byte),
    s.channels[c].owner = some id ↔ ∃ i ∈ s.active, i.id = id ∧ i.fades c = true
  /-- Each instance has a WAITING or FADING entry (R51). -/
  live : ∀ i ∈ s.active, i.finished = false
  /-- Entries keep their instance's time (R46, R47). -/
  timed : ∀ i ∈ s.active, ∀ e ∈ i.entries, CopyTimed i.elapsed e
  /-- The Follow List holds at most four follow starts (R71). -/
  follows : s.follows.length ≤ 4
  /-- In the START phase the lists are empty (R128). -/
  startQuiet : s.phase = .start → s.active = [] ∧ s.follows = []
  /-- In the START phase every level is 0 (R19, R129). -/
  startDark : s.phase = .start → ∀ c : ChannelNo, s.channels[c].level = 0
  /-- In the START phase no program is in flight (R120), the Report Queue is empty and its counter is 0 (R126, R131). -/
  startQueue : s.phase = .start → s.inFlight = none ∧ s.reports = [] ∧ s.overflow = none ∧ s.nextReport = 0

/-- Whenever the Arm Slot is not empty, the cue it names is a defined cue record (R64). -/
def ArmDefined (s : State) : Prop := ∀ a ∈ s.armed, s.cues[a.cue] ≠ none

/-- The records of the queue carry consecutive numbers that end just before `next`. -/
def NumbersEnd : List Report → Half → Prop
  | [], _ => True
  | [r], next => next = r.number + 1
  | r :: q :: rest, next => q.number = r.number + 1 ∧ NumbersEnd (q :: rest) next

/-- The laws of the Report Queue: at most 15 ordinary records (R137), numbered without a gap up to the OVERFLOW record or the
counter (R140), and an OVERFLOW record that counts exactly the numbers lost while its count is below 65535 (R142). -/
def QueueSound (s : State) : Prop :=
  s.reports.length ≤ 15 ∧
  match s.overflow with
  | none => NumbersEnd s.reports s.nextReport
  | some o =>
    NumbersEnd s.reports o.first ∧ 1 ≤ o.lost ∧ o.lost ≤ 65535 ∧
      (o.lost < 65535 → s.nextReport = o.first + BitVec.ofNat 16 o.lost)

/-- The used generations of a kind are exactly generations 1 to u, and every other is BLANK (R97). -/
def UsedPrefix (m : Vector GenState 4) (u : Nat) : Prop :=
  ∀ g : GenIdx, (g.val < u → m[g].used = true) ∧ (u ≤ g.val → m[g] = .blank)

/-- The laws of the Retained Store. -/
structure StoreSound (s : State) : Prop where
  /-- In the array the used generations of each kind are generations 1 to u (R97). -/
  arrayPrefix : ∀ k : RecordKind, ∃ u : Nat, u ≤ 4 ∧ UsedPrefix (s.array.found.ofKind k) u
  /-- In READY the map shows what the array holds, but for the program in flight: it writes the lowest BLANK generation of its
  kind, shown WRITING (R97, R100). -/
  ready : s.phase = .ready →
    match s.inFlight with
    | none => s.map = s.array.found
    | some p =>
      s.map = s.array.found.setPlace p.snapshot.kind p.generation .writing ∧
        s.array.found.lowestBlank p.snapshot.kind = some p.generation
  /-- In the START phase no program is in flight and every place of the map holds BLANK (R97, R120). -/
  start : s.phase = .start → s.inFlight = none ∧ s.map = blankMap
  /-- While a reset condition holds the part, a program that was in flight has been cut (R107). -/
  held : s.isHeld = true → ∀ p ∈ s.inFlight, (s.array.found.ofKind p.snapshot.kind)[p.generation] = .bad
  /-- Between an accepted RESTART and its reset base no program is in flight (R125). -/
  restart : s.restarting = true → s.inFlight = none ∧ s.sending ≠ none

/-- The bytes of payload that the receiver holds, and how many it may. -/
def ReceiverSound : Receiver → Prop
  | .payload _ _ length got => got.length < length ∧ length ≤ 240
  | .checkHigh _ _ got => got.length ≤ 240
  | .checkLow _ _ got _ => got.length ≤ 240
  | _ => True

/-- The laws of the Link Port: the inter-byte timer runs exactly outside HUNT (R152), a frame waits only behind one in transmission
(R160), a break finds the receiver in HUNT (R135), and no request is executed in the START phase (R158). -/
structure LinkSound (s : State) : Prop where
  timer : s.interByte = none ↔ s.receiver = .hunt
  partialFrame : ReceiverSound s.receiver
  order : s.waiting ≠ none → s.sending ≠ none ∨ s.isHeld = true
  broken : s.breakDetector = .latched → s.receiver = .hunt
  startClear : s.phase = .start → s.lastReply = none
  /-- The break detector is IDLE exactly while RXD is high (R162), but for a reset condition, in which RXD is not sampled. -/
  line : s.isHeld = false → (s.breakDetector = .idle ↔ s.rxd = .high)

/-! ## The curve value (R5) -/

/-- `v` is the curve value of a level: the output of the point whose input is the level, or the value between the two adjacent
points around it, rounded to the nearest integer and half up (R5). -/
def IsCurveValue (curve : Curve) (level v : Nat) : Prop :=
  (∃ p ∈ curve, p.input = level ∧ v = p.output) ∨
  ∃ before p q after, curve = before ++ p :: q :: after ∧ p.input < level ∧ level < q.input ∧
    v = (2 * (p.output * (q.input - level) + q.output * (level - p.input)) + (q.input - p.input)) / (2 * (q.input - p.input))

/-! ## Requests on the link -/

/-- The request kind, sequence and payload of a request row; none for the rows that are no request. -/
def requestOf : Instr → Option (RequestKind × Byte × List Byte)
  | .hello q p => some (.hello, q, p)
  | .status q p => some (.status, q, p)
  | .fetch q p => some (.fetch, q, p)
  | .restart q p => some (.restart, q, p)
  | .setProfile q p => some (.setProfile, q, p)
  | .setCeiling q p => some (.setCeiling, q, p)
  | .curveWrite q p => some (.curveWrite, q, p)
  | .curveRead q p => some (.curveRead, q, p)
  | .bind q p => some (.bind, q, p)
  | .trimSet q p => some (.trimSet, q, p)
  | .trimSource q p => some (.trimSource, q, p)
  | .channelRead q p => some (.channelRead, q, p)
  | .setLevel q p => some (.setLevel, q, p)
  | .cueLoad q p => some (.cueLoad, q, p)
  | .cueRead q p => some (.cueRead, q, p)
  | .cueClear q p => some (.cueClear, q, p)
  | .cueGo q p => some (.cueGo, q, p)
  | .cueArm q p => some (.cueArm, q, p)
  | .cueDisarm q p => some (.cueDisarm, q, p)
  | .cueStop q p => some (.cueStop, q, p)
  | .cueStopAll q p => some (.cueStopAll, q, p)
  | .activeRead q p => some (.activeRead, q, p)
  | .storeStatus q p => some (.storeStatus, q, p)
  | .storeProgram q p => some (.storeProgram, q, p)
  | .storeLoadCurves q => some (.storeLoad, q, [0x01])
  | .storeLoadTrims q => some (.storeLoad, q, [0x02])
  | .storeLoadLabel q => some (.storeLoad, q, [0x04])
  | .storeLoadStartup q => some (.storeLoad, q, [0x03])
  | .storeLoadNoRecordKind q p => some (.storeLoad, q, p)
  | .labelSet q p => some (.labelSet, q, p)
  | .fadeClockExpiry => none
  | .goFallingEdge => none
  | .programCompletion _ => none
  | .loadCompletion => none
  | .resetCondition _ => none
  | .resetBase _ _ => none
  | .oeChange _ => none
  | .byteReceived _ => none
  | .framingError => none
  | .interByteTimeout => none
  | .transmissionEnd => none
  | .linkReset => none
  | .rxdFalls => none
  | .rxdRises => none

/-- Bytes received one after another, each as its own command. -/
def feed : List Byte → State → Host.Outcome State Fault Refusal
  | [], s => .next s
  | b :: rest, s =>
    match exec (.byteReceived b) s with
    | .next t => feed rest t
    | o => o

/-- The two bytes of a channel mask (R188). -/
def maskBytes (m : Half) : List Byte := [m.extractLsb' 8 8, m.extractLsb' 0 8]

/-- The check of a request's frame. -/
def requestCheck (kind : RequestKind) (seq : Byte) (payload : List Byte) : Half := frameCheck seq kind.code payload

/-- A request frame with this sequence and payload is executed when it completes: the part is READY, no break stands, no frame is
in transmission, and the frame is no repeat (R161). -/
def Executes (s : State) (kind : RequestKind) (seq : Byte) (payload : List Byte) : Prop :=
  payload.length ≤ 240 ∧ s.phase = .ready ∧ s.breakDetector ≠ .latched ∧ s.sending = none ∧
    s.repeatOf seq (requestCheck kind seq payload) = none

/-- `s'` with the link as the execution of a request leaves it, answering with `r`: the receiver in HUNT (R152), the Last Reply
Record replaced (R158), the reply in transmission (R161). -/
def answered (s' : State) (kind : RequestKind) (seq : Byte) (payload : List Byte) (r : Reply) : State :=
  { s' with
    receiver := .hunt
    interByte := none
    lastReply := some { seq := seq, check := requestCheck kind seq payload, reply := replyFrame seq kind r }
    sending := some { frame := replyFrame seq kind r, startedAt := s'.clock } }

/-- A frame offered when the receiver has just returned to HUNT (R152, R160). -/
def huntAndOffer (s : State) (f : Frame) : State := { s with receiver := .hunt, interByte := none }.offer f

/-- The payload length of the requests whose payload is Fixed (R168); none for CURVE_WRITE, CUE_LOAD and STORE_PROGRAM. -/
def fixedLength : RequestKind → Option Nat
  | .hello => some 0
  | .status => some 0
  | .fetch => some 1
  | .restart => some 0
  | .setProfile => some 1
  | .setCeiling => some 2
  | .curveWrite => none
  | .curveRead => some 1
  | .bind => some 3
  | .trimSet => some 4
  | .trimSource => some 3
  | .channelRead => some 1
  | .setLevel => some 4
  | .cueLoad => none
  | .cueRead => some 1
  | .cueClear => some 1
  | .cueGo => some 1
  | .cueArm => some 2
  | .cueDisarm => some 0
  | .cueStop => some 1
  | .cueStopAll => some 0
  | .activeRead => some 0
  | .storeStatus => some 0
  | .storeProgram => none
  | .storeLoad => some 1
  | .labelSet => some 16

/-- A payload of the right Fixed length with a field outside its range (R168). -/
def OutOfRange : RequestKind → List Byte → Prop
  | .fetch, [m] => m = 0 ∨ 16 < m.toNat
  | .setProfile, [p] => 3 < p.toNat
  | .setCeiling, [p, k] => 1 < p.toNat ∨ 5 < k.toNat
  | .curveRead, [k] => 7 < k.toNat
  | .bind, [m1, m0, k] => m1 = 0 ∧ m0 = 0 ∨ 7 < k.toNat
  | .trimSet, [m1, m0, t1, t0] => m1 = 0 ∧ m0 = 0 ∨ signed16 t1 t0 < -255 ∨ 255 < signed16 t1 t0
  | .trimSource, [m1, m0, x] => m1 = 0 ∧ m0 = 0 ∨ 1 < x.toNat
  | .channelRead, [c] => 15 < c.toNat
  | .setLevel, [m1, m0, l1, l0] => m1 = 0 ∧ m0 = 0 ∨ 1000 < word16 l1 l0
  | .cueRead, [c] => c = 0 ∨ 32 < c.toNat
  | .cueClear, [c] => c = 0 ∨ 32 < c.toNat
  | .cueGo, [c] => c = 0 ∨ 32 < c.toNat
  | .cueArm, [c, m] => c = 0 ∨ 32 < c.toNat ∨ (m ≠ 0x01 ∧ m ≠ 0x02)
  | .storeLoad, [k] => k = 0 ∨ 4 < k.toNat
  | _, _ => False

/-- How a request with a Fixed payload is refused by its form (R166, R168): BAD_LENGTH for a payload of another length, RANGE for a
field outside its range. -/
def FormRefusals (s : State) (q : Byte) (k : RequestKind) (command : List Byte → Instr) : Prop :=
  ∀ (p : List Byte) (n : Nat), fixedLength k = some n → Executes s k q p →
    (p.length ≠ n → exec (command p) s = .next (answered s k q p ⟨.badLength, []⟩)) ∧
    (p.length = n → OutOfRange k p → exec (command p) s = .next (answered s k q p ⟨.range, []⟩))

/-- The fields of one entry of a CUE_LOAD payload, whatever their values (R190). -/
structure EntryFields where
  channel : Byte
  target : Half
  fade : Half
  delay : Half
  deriving DecidableEq, Repr

/-- The seven bytes of the fields. -/
def EntryFields.bytes (f : EntryFields) : List Byte := f.channel :: maskBytes f.target ++ maskBytes f.fade ++ maskBytes f.delay

/-- A field of the entry lies outside its range (R27). -/
def EntryFields.OutOfRange (f : EntryFields) : Prop :=
  15 < f.channel.toNat ∨ 1000 < f.target.toNat ∨ 60000 < f.fade.toNat ∨ 60000 < f.delay.toNat

/-- `g` is the newest GOOD generation of a kind: no generation with a higher number is GOOD (R109). -/
def NewestGood (m : Vector GenState 4) (g : GenIdx) : Prop := m[g] = .good ∧ ∀ g' : GenIdx, g < g' → m[g'] ≠ .good

/-- `g` is the lowest BLANK generation of a kind (R101). -/
def LowestBlank (m : Vector GenState 4) (g : GenIdx) : Prop := m[g] = .blank ∧ ∀ g' : GenIdx, g' < g → m[g'] ≠ .blank

/-- Four places with place `g` holding `x` and every other place as it was. -/
def withPlace {α : Type} (places : Vector α 4) (g : GenIdx) (x : α) : Vector α 4 :=
  Vector.ofFn fun g' => if g' = g then x else places[g']

/-- The map with generation `g` of a kind in state `x` and every other place as it was (R97). -/
def mapWith (m : GenMap) (g : GenIdx) (x : GenState) : RecordKind → GenMap
  | .curves => { m with curves := withPlace m.curves g x }
  | .trims => { m with trims := withPlace m.trims g x }
  | .startup => { m with startup := withPlace m.startup g x }
  | .label => { m with label := withPlace m.label g x }

/-- The array with generation `g` of the content's kind found GOOD with that content, or BAD, and every other place as it was
(R96, R105, R107). -/
def arrayWith (a : RetainedArray) (g : GenIdx) : Content → ReadBack → RetainedArray
  | .curves x, .good => { a with curves := withPlace a.curves g (.good x) }
  | .curves _, .bad => { a with curves := withPlace a.curves g .bad }
  | .trims x, .good => { a with trims := withPlace a.trims g (.good x) }
  | .trims _, .bad => { a with trims := withPlace a.trims g .bad }
  | .startup x, .good => { a with startup := withPlace a.startup g (.good x) }
  | .startup _, .bad => { a with startup := withPlace a.startup g .bad }
  | .label x, .good => { a with label := withPlace a.label g (.good x) }
  | .label _, .bad => { a with label := withPlace a.label g .bad }

/-- The states in which the four generations of a kind are found (R96). -/
def foundIn {α : Type} (places : Vector (Place α) 4) : Vector GenState 4 :=
  Vector.ofFn fun g => match places[g] with
    | .blank => .blank
    | .good _ => .good
    | .bad => .bad

/-- `x` is what a kind's four generations load, none standing for the kind's defaults, and `n` is what the START report carries
for it: the content and number of the newest GOOD generation, or nothing and 0 where none is GOOD; the fallback flag set exactly
when a BAD generation is newer than the one loaded (R109, R131). -/
structure Loads {α : Type} (places : Vector (Place α) 4) (x : Option α) (n : LoadNote) : Prop where
  content : (∃ g : GenIdx, ∃ y, x = some y ∧ places[g] = .good y ∧ n.generation = g.val + 1 ∧
      ∀ g' : GenIdx, g < g' → ∀ z, places[g'] ≠ .good z) ∨
    (x = none ∧ n.generation = 0 ∧ ∀ g : GenIdx, ∀ z, places[g] ≠ .good z)
  flag : n.fallback = true ↔ ∃ g : GenIdx, places[g] = .bad ∧ n.generation < g.val + 1

/-- The ceiling of running profile `p` is the ceiling in force (R78). -/
def CeilingInForce (s : State) (p : RunProfile) : Prop := s.profile = p.toProfile ∨ s.profile = .hold ∧ s.heldFrom = p

/-- The drive codes of all channels recomputed from the inputs as they stand in `s` (R9). -/
def allRecoded (s : State) : Vector Channel 16 :=
  Vector.ofFn fun c => { s.channels[c] with driveCode := s.codeOf s.channels[c] }

end Sys2Proof.Machine
end

