-- ==== Sys2Proof/Certificates/Slice0/Obligations.lean ====
section
/-!
DEFINITION. The statements about the KL16 for the provers, family by family. A statement about an executed request has the form
`exec … = .next (answered … (its effect) …)`: the state it names is the whole next state, so it says that the request completes, what
it writes, and that every other field stands.
-/

section Statements

open Sys2Proof Sys2Proof.Machine

/-! ## The queue of commands -/

/-- A step takes the command at the front of the queue and carries it out with the queue's rest. With no command waiting, one
microsecond of block time passes and nothing else (the model's choice, log 3). -/
def Obligations.StepRunsTheFrontCommand : Prop :=
  (∀ (c : Instr) (rest : List Instr) (s : State), step { s with pending := c :: rest } = exec c { s with pending := rest }) ∧
  ∀ s : State, s.pending = [] → step s = .next { s with clock := s.clock + 1 }

/-- No command reads or changes the commands that wait behind it (the queue is the model's own, log 16). -/
def Obligations.WaitingCommandsAreNotRead : Prop :=
  ∀ (c : Instr) (s : State) (l : List Instr),
    match exec c s with
    | .next t => exec c { s with pending := l } = .next { t with pending := l }
    | .fault _ => False
    | .refused r => exec c { s with pending := l } = .refused r

/-! ## The Link Port -/

/-- A request row is the completion of its frame (log 1): the bytes of the frame, received one after another by a receiver in HUNT,
or by one that takes no byte (R123, R162), leave the state that the row's one command leaves (R150, R151, R152, R155). -/
def Obligations.FrameBytesActAsTheirRequestRow : Prop :=
  ∀ (i : Instr) (k : RequestKind) (q : Byte) (p : List Byte) (s : State),
    requestOf i = some (k, q, p) → i.wellFormed = true → (s.deaf = true ∨ s.receiver = .hunt) →
      feed (frameBytes { seq := q, kind := k.code, payload := p }) s = exec i s

/-- A well-formed request that is not executed: NOT_READY in the START phase (R128), the stored reply for a repeat (R159), OVERRUN
while a frame is in transmission (R161). In each case nothing but the receiver and the outbound queue changes. -/
def Obligations.RequestNotExecuted : Prop :=
  ∀ (i : Instr) (k : RequestKind) (q : Byte) (p : List Byte) (s : State),
    requestOf i = some (k, q, p) → i.wellFormed = true → s.breakDetector ≠ .latched →
      (s.phase = .start → exec i s = .next (huntAndOffer s (rejectFrame q .notReady))) ∧
      (s.phase = .ready → ∀ r : LastReply, s.lastReply = some r → r.seq = q → r.check = requestCheck k q p →
        exec i s = .next (huntAndOffer s r.reply)) ∧
      (s.phase = .ready → (∀ r : LastReply, s.lastReply = some r → r.seq ≠ q ∨ r.check ≠ requestCheck k q p) → s.sending ≠ none →
        exec i s = .next (huntAndOffer s (rejectFrame q .overrun)))

/-- A complete frame is judged in the order of R155: BAD_CHECK, NOT_READY, UNKNOWN_KIND, and otherwise it is admitted as the request
that its kind names. -/
def Obligations.CompleteFrameIsJudged : Prop :=
  ∀ (s : State) (b q kind h : Byte) (got : List Byte),
    s.deaf = false → s.receiver = .checkLow q kind got h → got.length ≤ 240 →
      ((h ++ b : Half) ≠ frameCheck q kind got →
        exec (.byteReceived b) s = .next (huntAndOffer s (rejectFrame q .badCheck))) ∧
      ((h ++ b : Half) = frameCheck q kind got → s.phase = .start →
        exec (.byteReceived b) s = .next (huntAndOffer s (rejectFrame q .notReady))) ∧
      ((h ++ b : Half) = frameCheck q kind got → s.phase = .ready → (∀ k : RequestKind, k.code ≠ kind) →
        exec (.byteReceived b) s = .next (huntAndOffer s (rejectFrame q .unknownKind))) ∧
      ((h ++ b : Half) = frameCheck q kind got → s.phase = .ready →
        ∀ (i : Instr) (k : RequestKind), requestOf i = some (k, q, got) → k.code = kind → i.wellFormed = true →
          exec (.byteReceived b) s = exec i s)

/-- The bytes of a frame before its last, state by state of the receiver, and the TOO_LONG reject (R152, R154). The model's choices:
the inter-byte timer is held as the moment of its start (log 3), and a byte leaves the break detector as it is (log 11). -/
def Obligations.ReceiverTakesBytes : Prop :=
  ∀ (s : State) (b : Byte), s.deaf = false →
    let goesOn (r : Receiver) : Prop :=
      exec (.byteReceived b) s = .next { s with receiver := r, interByte := some s.clock }
    (s.receiver = .hunt → b = 0xC3 → goesOn .headerSeq) ∧
    (s.receiver = .hunt → b ≠ 0xC3 → exec (.byteReceived b) s = .next s) ∧
    (s.receiver = .headerSeq → goesOn (.headerKind b)) ∧
    (∀ q, s.receiver = .headerKind q → goesOn (.headerLength q b)) ∧
    (∀ q k, s.receiver = .headerLength q k → b.toNat = 0 → goesOn (.checkHigh q k [])) ∧
    (∀ q k, s.receiver = .headerLength q k → 1 ≤ b.toNat → b.toNat ≤ 240 → goesOn (.payload q k b.toNat [])) ∧
    (∀ q k, s.receiver = .headerLength q k → 240 < b.toNat →
      exec (.byteReceived b) s = .next (huntAndOffer s (rejectFrame q .tooLong))) ∧
    (∀ q k n got, s.receiver = .payload q k n got → got.length + 1 < n → goesOn (.payload q k n (got ++ [b]))) ∧
    (∀ q k n got, s.receiver = .payload q k n got → got.length + 1 = n → goesOn (.checkHigh q k (got ++ [b]))) ∧
    (∀ q k got, s.receiver = .checkHigh q k got → goesOn (.checkLow q k got b))

/-- A frame offered to the outbound queue is placed by R160. At the end of a transmission the waiting frame enters transmission;
when the frame was the reply of a RESTART, the restart's reset begins instead (R125, log 8). The clock moves to the end of the
transmission (log 3). -/
def Obligations.OutboundQueue : Prop :=
  (∀ (s : State) (f : Frame),
    (s.sending = none → s.offer f = { s with sending := some { frame := f, startedAt := s.clock } }) ∧
    (s.sending ≠ none → s.waiting = none → s.offer f = { s with waiting := some f }) ∧
    (s.sending ≠ none → s.waiting ≠ none → s.offer f = s)) ∧
  ∀ (s : State) (x : Sending), s.isHeld = false → s.sending = some x →
    let now := max s.clock (x.startedAt + sendTime s.bitRate x.frame)
    (s.restarting = false → s.waiting = none →
      exec .transmissionEnd s = .next { s with clock := now, sending := none }) ∧
    (∀ f, s.restarting = false → s.waiting = some f →
      exec .transmissionEnd s = .next { s with clock := now, sending := some { frame := f, startedAt := now }, waiting := none }) ∧
    (s.restarting = true →
      exec .transmissionEnd s = .next { s with clock := now, sending := none, restarting := false, phase := .held .restart })

/-- An executed request is answered by one reply and replaces the Last Reply Record. A request refused with a status other than OK
and ACCEPTED changes no state outside the Link Port, and its reply carries the status alone (R156, R158, R167). -/
def Obligations.RefusedRequestChangesNothing : Prop :=
  ∀ (i : Instr) (k : RequestKind) (q : Byte) (p : List Byte) (s : State),
    requestOf i = some (k, q, p) → i.wellFormed = true → Executes s k q p →
      ∃ (t : State) (r : Reply), exec i s = .next (answered t k q p r) ∧
        (r.status ≠ .ok → r.status ≠ .accepted → t = s ∧ r.body = []) ∧ (r.status = .accepted → k = .storeProgram)

/-- The first two checks of R166 for the requests whose payload is Fixed (R168): a payload of any other length is refused
BAD_LENGTH; a payload of the right length with a field outside its range is refused RANGE. -/
def Obligations.LengthThenRange : Prop :=
  ∀ (i : Instr) (k : RequestKind) (q : Byte) (p : List Byte) (s : State),
    requestOf i = some (k, q, p) → i.wellFormed = true → Executes s k q p → ∀ n, fixedLength k = some n →
      (p.length ≠ n → exec i s = .next (answered s k q p ⟨.badLength, []⟩)) ∧
      (p.length = n → OutOfRange k p → exec i s = .next (answered s k q p ⟨.range, []⟩))

/-- At the expiry of the inter-byte timer the partial frame is discarded and TRUNCATED is offered, with the sequence received, or 0
where the frame ended directly after its start byte (R153). In HUNT the timer is idle (R152) and the event is none (log 2). The
clock moves to the timer's end (log 3). -/
def Obligations.InterByteTimeoutTruncates : Prop :=
  ∀ (s : State), s.isHeld = false →
    (s.receiver = .hunt → exec .interByteTimeout s = .next s) ∧
    ∀ t, s.interByte = some t →
      let ends (q : Byte) : Prop :=
        exec .interByteTimeout s =
          .next (huntAndOffer { s with clock := max s.clock (t + 5000) } (rejectFrame q .truncated))
      (s.receiver = .headerSeq → ends 0) ∧
      (∀ q, s.receiver = .headerKind q → ends q) ∧
      (∀ q k, s.receiver = .headerLength q k → ends q) ∧
      (∀ q k n got, s.receiver = .payload q k n got → ends q) ∧
      (∀ q k got, s.receiver = .checkHigh q k got → ends q) ∧
      (∀ q k got h, s.receiver = .checkLow q k got h → ends q)

/-- The break detector: RXD's fall starts it, its rise returns it to IDLE, 20 ms of low give the link reset of R135, and while it is
LATCHED no byte is taken and no second link reset takes place (R162). A character with a framing error does nothing (R149). The
model's choices: the clock (log 3), and that a byte does not move the detector (log 11). -/
def Obligations.BreakDetectorFollowsRxd : Prop :=
  ∀ s : State,
    (s.isHeld = false → s.breakDetector = .idle →
      exec .rxdFalls s = .next { s with rxd := .low, breakDetector := .timing s.clock }) ∧
    (s.isHeld = false → exec .rxdRises s = .next { s with rxd := .high, breakDetector := .idle }) ∧
    (∀ t, s.isHeld = false → s.breakDetector = .timing t →
      exec .linkReset s = .next { s with
        clock := max s.clock (t + 20000)
        receiver := .hunt
        interByte := none
        lastReply := none
        breakDetector := .latched }) ∧
    (s.breakDetector = .latched → exec .linkReset s = .next s ∧ ∀ b, exec (.byteReceived b) s = .next s) ∧
    exec .framingError s = .next s

/-- The laws of the Link Port hold after every command that finds them (R135, R152, R158, R160, R162). -/
def Obligations.LinkSoundIsKept : Prop :=
  ∀ (c : Instr) (s t : State), LinkSound s → exec c s = .next t → LinkSound t

/-! ## Outputs -/

/-- What the pins carry (R10, R123), what ATTN shows (R146, R123), and that a change of OE changes OE alone (R90). READY lasts to the
reset base of a RESTART (R127), so pins and ATTN show the state at the moment between the end of its reply and the reset base; that
the model holds this moment as a phase of its own is its choice (log 8). -/
def Obligations.OutputsFollowTheState : Prop :=
  ∀ s : State,
    (∀ c : ChannelNo, s.oe = .low ∨ s.phase = .start ∨ s.phase = .held .power ∨ s.phase = .held .pin → s.delivered c = 0) ∧
    (∀ c : ChannelNo, s.oe = .high → s.phase = .ready ∨ s.phase = .held .restart → s.delivered c = s.channels[c].driveCode) ∧
    (s.phase ≠ .held .power → s.phase ≠ .held .pin → (s.attnLow = true ↔ s.reports ≠ [] ∨ s.overflow ≠ none)) ∧
    (s.phase = .held .power ∨ s.phase = .held .pin → s.attnLow = false) ∧
    ∀ l, exec (.oeChange l) s = .next { s with oe := l }

/-- OE acts on the pins alone: no command but STATUS, whose reply shows it, the byte that completes a STATUS frame, and OE's own change
acts otherwise with OE at another level (R10, R90). -/
def Obligations.OeActsOnThePinsAlone : Prop :=
  ∀ (c : Instr) (s : State) (l : PinLevel),
    (∀ q p, c ≠ .status q p) → (∀ l', c ≠ .oeChange l') →
    ((∃ b, c = .byteReceived b) → ∀ q p h, s.receiver ≠ .checkLow q RequestKind.status.code p h) →
      match exec c s with
      | .next t => exec c { s with oe := l } = .next { t with oe := l }
      | .fault _ => False
      | .refused r => exec c { s with oe := l } = .refused r

/-! ## Channels and curves -/

/-- While a channel is owned, its curve binding and the contents of the slot it is bound to do not change, whatever the command
(R17). -/
def Obligations.OwnedCalibrationIsFixed : Prop :=
  ∀ (c : Instr) (s t : State) (ch : ChannelNo), EngineSound s → exec c s = .next t →
    s.channels[ch].owned = true → t.channels[ch].owned = true →
      t.channels[ch].slot = s.channels[ch].slot ∧ t.curveAt s.channels[ch].slot = s.curveAt s.channels[ch].slot

/-- The commands that may change a level: those in which SET_LEVEL, an entry start, a fade step or the reset base takes place (R2).
-/
def Obligations.LevelsAreWrittenByTheseAlone : Prop :=
  ∀ (c : Instr) (s t : State) (ch : ChannelNo), exec c s = .next t → t.channels[ch].level ≠ s.channels[ch].level →
    match c with
    | .setLevel _ _ | .cueGo _ _ | .storeLoadStartup _ | .byteReceived _ => True
    | .goFallingEdge | .fadeClockExpiry | .loadCompletion | .resetBase _ _ => True
    | _ => False

/-- Levels, trims, curves, cue entries and retained content keep to their ranges (R1, R2, R3, R23, R95), in the states that the laws
of the Cue Engine allow. -/
def Obligations.RangesAreKept : Prop :=
  ∀ (c : Instr) (s t : State), EngineSound s → RangesHold s → exec c s = .next t → RangesHold t

/-- Every command leaves every drive code at the value that R7 and R8 give for the present inputs, if it finds them so (R9). -/
def Obligations.CodesStayCurrent : Prop :=
  ∀ (c : Instr) (s t : State), CodesCurrent s → exec c s = .next t → CodesCurrent t

/-- The valid curves are those of R4; their inputs are at most 1000; CURVE_WRITE refuses every other list BAD_CURVE, whatever the
slot, and leaves the slot as it was. -/
def Obligations.ValidCurveIsR4 : Prop :=
  (∀ c : Curve, validCurve c = true ↔
    (2 ≤ c.length ∧ c.length ≤ 16) ∧ c.head?.map Point.input = some 0 ∧ c.getLast?.map Point.input = some 1000 ∧
      c.Pairwise (fun p q => p.input < q.input) ∧ ∀ p ∈ c, p.output ≤ 4095) ∧
  (∀ c : Curve, validCurve c = true → ∀ p ∈ c, p.input ≤ 1000) ∧
  ∀ (s : State) (q : Byte) (k : SlotNo) (c : Curve), (∀ p ∈ c, p.input < 65536 ∧ p.output < 65536) → validCurve c = false →
    let payload := byteOf k.val :: byteOf c.length :: (c.map fun p => bytes16 p.input ++ bytes16 p.output).flatten
    Executes s .curveWrite q payload →
      exec (.curveWrite q payload) s = .next (answered s .curveWrite q payload ⟨.badCurve, []⟩)

/-- The curve value of a level under a valid curve is the one value that R5 gives, and it lies between the outputs of the two points
used. -/
def Obligations.CurveValueIsR5 : Prop :=
  ∀ (c : Curve) (level : Nat), validCurve c = true → level ≤ 1000 →
    (∀ v : Nat, IsCurveValue c level v ↔ v = curveValue c level) ∧ curveValue c level ≤ 4095 ∧
      ∀ before p q after, c = before ++ p :: q :: after → p.input < level → level < q.input →
        min p.output q.output ≤ curveValue c level ∧ curveValue c level ≤ max p.output q.output

/-- The drive code of a channel's inputs: 0 at level 0 and in STANDBY (R7); otherwise the curve value and the effective trim (R6),
held between 0 and the ceiling in force (R8, R78). -/
def Obligations.DriveCodeLaw : Prop :=
  ∀ (s : State) (ch : Channel),
    (ch.level = 0 ∨ s.profile = .standby → s.codeOf ch = 0) ∧
    ∀ p : RunProfile, CeilingInForce s p → ch.level ≠ 0 →
      let trim : Int := if ch.source = .override then ch.overrideTrim else ch.storedTrim
      let sum : Int := curveValue (s.curveAt ch.slot) ch.level + trim
      let ofClass : Vector Nat 6 := #v[4095, 3686, 3276, 2867, 2457, 2048]
      let ceiling : Nat := match p with
        | .active => ofClass[s.activeClass]
        | .economy => ofClass[s.economyClass]
      (sum < 0 → s.codeOf ch = 0) ∧ ((ceiling : Int) < sum → s.codeOf ch = ceiling) ∧
        (0 ≤ sum → sum ≤ ceiling → (s.codeOf ch : Int) = sum)

/-- BIND (R11, R175): refused by its form; refused IN_USE when a selected channel is OWNED; otherwise the selected channels take the
slot and their drive codes are recomputed, and a channel already bound to the slot keeps its drive code. -/
def Obligations.BindBindsFreeChannels : Prop :=
  (∀ (s : State) (q : Byte), FormRefusals s q .bind (.bind q)) ∧
  ∀ (s : State) (q : Byte) (mask : Half) (k : SlotNo), mask ≠ 0 → Executes s .bind q (maskBytes mask ++ [byteOf k.val]) →
    ((∃ c, selects mask c = true ∧ s.channels[c].owned = true) →
      exec (.bind q (maskBytes mask ++ [byteOf k.val])) s =
        .next (answered s .bind q (maskBytes mask ++ [byteOf k.val]) ⟨.inUse, []⟩)) ∧
    ((∀ c, selects mask c = true → s.channels[c].owned = false) →
      exec (.bind q (maskBytes mask ++ [byteOf k.val])) s =
        .next (answered
          { s with channels := Vector.ofFn fun c =>
              let ch := { s.channels[c] with slot := k }
              if selects mask c then { ch with driveCode := s.codeOf ch } else s.channels[c] }
          .bind q (maskBytes mask ++ [byteOf k.val]) ⟨.ok, []⟩)) ∧
    (CodesCurrent s → ∀ c : ChannelNo, s.channels[c].slot = k →
      s.codeOf { s.channels[c] with slot := k } = s.channels[c].driveCode)

/-- TRIM_SET (R12) and TRIM_SOURCE (R13), with their refusals (R176): the selected channels take the trim or the source, OWNED or
FREE; a channel whose source is STORED keeps its drive code under TRIM_SET; under TRIM_SOURCE a channel whose two trims are equal,
or whose source was already the given one, keeps its drive code. -/
def Obligations.TrimRequests : Prop :=
  (∀ (s : State) (q : Byte), FormRefusals s q .trimSet (.trimSet q) ∧ FormRefusals s q .trimSource (.trimSource q)) ∧
  ∀ (s : State) (q : Byte) (mask : Half), mask ≠ 0 →
    (∀ trim : Int, TrimInRange trim → Executes s .trimSet q (maskBytes mask ++ bytesSigned16 trim) →
      exec (.trimSet q (maskBytes mask ++ bytesSigned16 trim)) s =
        .next (answered
          { s with channels := Vector.ofFn fun c =>
              let ch := { s.channels[c] with overrideTrim := trim }
              if selects mask c then
                if ch.source = .override then { ch with driveCode := s.codeOf ch } else ch
              else s.channels[c] }
          .trimSet q (maskBytes mask ++ bytesSigned16 trim) ⟨.ok, []⟩)) ∧
    ∀ x : TrimSource, Executes s .trimSource q (maskBytes mask ++ [x.code]) →
      exec (.trimSource q (maskBytes mask ++ [x.code])) s =
        .next (answered
          { s with channels := Vector.ofFn fun c =>
              let ch := { s.channels[c] with source := x }
              if selects mask c then { ch with driveCode := s.codeOf ch } else s.channels[c] }
          .trimSource q (maskBytes mask ++ [x.code]) ⟨.ok, []⟩) ∧
      (CodesCurrent s → ∀ c : ChannelNo,
        s.channels[c].source = x ∨ s.channels[c].overrideTrim = s.channels[c].storedTrim →
          s.codeOf { s.channels[c] with source := x } = s.channels[c].driveCode)

/-- CURVE_WRITE (R15, R174): its refusals in their order, and the replacement of the slot with the drive codes of the channels bound
to it recomputed. -/
def Obligations.CurveWriteReplacesTheSlot : Prop :=
  ∀ (s : State) (q : Byte),
    (∀ p : List Byte, Executes s .curveWrite q p →
      (p.length < 2 ∨ ∃ a n rest, p = a :: n :: rest ∧ rest.length ≠ 4 * n.toNat) →
        exec (.curveWrite q p) s = .next (answered s .curveWrite q p ⟨.badLength, []⟩)) ∧
    (∀ (a n : Byte) (rest : List Byte), Executes s .curveWrite q (a :: n :: rest) → rest.length = 4 * n.toNat → 7 < a.toNat →
      exec (.curveWrite q (a :: n :: rest)) s = .next (answered s .curveWrite q (a :: n :: rest) ⟨.range, []⟩)) ∧
    ∀ (k : SlotNo) (c : Curve), (∀ p ∈ c, p.input < 65536 ∧ p.output < 65536) →
      let payload := byteOf k.val :: byteOf c.length :: (c.map fun p => bytes16 p.input ++ bytes16 p.output).flatten
      Executes s .curveWrite q payload →
        (validCurve c = false → exec (.curveWrite q payload) s = .next (answered s .curveWrite q payload ⟨.badCurve, []⟩)) ∧
        (validCurve c = true → k = 0 →
          exec (.curveWrite q payload) s = .next (answered s .curveWrite q payload ⟨.readOnly, []⟩)) ∧
        (validCurve c = true → k ≠ 0 → (∃ n : ChannelNo, s.channels[n].owned = true ∧ s.channels[n].slot = k) →
          exec (.curveWrite q payload) s = .next (answered s .curveWrite q payload ⟨.inUse, []⟩)) ∧
        (validCurve c = true → k ≠ 0 → (∀ n : ChannelNo, s.channels[n].owned = true → s.channels[n].slot ≠ k) →
          let written := { s with curves := Vector.ofFn fun j => if j.val + 1 = k.val then c else s.curves[j] }
          exec (.curveWrite q payload) s =
            .next (answered
              { written with channels := Vector.ofFn fun n =>
                  let ch := s.channels[n]
                  if ch.slot = k then { ch with driveCode := written.codeOf ch } else ch }
              .curveWrite q payload ⟨.ok, []⟩))

/-- CURVE_READ (R16), CHANNEL_READ (R14, R177), CUE_READ (R28) and ACTIVE_READ (R58): each replies OK with the state it reads, in
the layout of R190, and changes nothing; CUE_READ of an UNDEFINED record is refused EMPTY, and each is refused by its form (R174,
R177, R179, R183). -/
def Obligations.ReadRequestsShowTheState : Prop :=
  ∀ (s : State) (q : Byte),
    (FormRefusals s q .curveRead (.curveRead q) ∧ FormRefusals s q .channelRead (.channelRead q) ∧
      FormRefusals s q .cueRead (.cueRead q) ∧ FormRefusals s q .activeRead (.activeRead q)) ∧
    (∀ k : SlotNo, Executes s .curveRead q [byteOf k.val] →
      exec (.curveRead q [byteOf k.val]) s =
        .next (answered s .curveRead q [byteOf k.val]
          ⟨.ok, byteOf (s.curveAt k).length :: ((s.curveAt k).map fun p => bytes16 p.input ++ bytes16 p.output).flatten⟩)) ∧
    s.curveAt 0 = [⟨0, 0⟩, ⟨1000, 4095⟩] ∧
    (∀ c : ChannelNo, Executes s .channelRead q [byteOf c.val] →
      let ch := s.channels[c]
      let owner : List Byte := match ch.owner with
        | none => [0, 0]
        | some id => [1, id]
      exec (.channelRead q [byteOf c.val]) s =
        .next (answered s .channelRead q [byteOf c.val]
          ⟨.ok, bytes16 ch.level ++ owner ++ [byteOf ch.slot.val, ch.source.code] ++ bytesSigned16 ch.overrideTrim ++
            bytesSigned16 ch.storedTrim ++ bytes16 ch.driveCode⟩)) ∧
    (∀ c : CueIdx, Executes s .cueRead q [byteOf (c.val + 1)] →
      (s.cues[c] = none →
        exec (.cueRead q [byteOf (c.val + 1)]) s = .next (answered s .cueRead q [byteOf (c.val + 1)] ⟨.empty, []⟩)) ∧
      ∀ r, s.cues[c] = some r →
        let fol : Byte := match r.follow with
          | none => 0
          | some f => byteOf (f.val + 1)
        exec (.cueRead q [byteOf (c.val + 1)]) s =
          .next (answered s .cueRead q [byteOf (c.val + 1)]
            ⟨.ok, [byteOf (c.val + 1), fol, byteOf r.entries.length] ++
              (r.entries.map fun e => byteOf e.channel.val :: bytes16 e.target ++ bytes16 e.fade ++ bytes16 e.delay).flatten⟩)) ∧
    (Executes s .activeRead q [] →
      exec (.activeRead q []) s =
        .next (answered s .activeRead q []
          ⟨.ok, byteOf s.active.length :: (s.active.map fun i =>
            [i.id, cueByte i.cue, i.source.code, byteOf i.entries.length] ++
            (i.entries.map fun e => [byteOf e.entry.channel.val, e.state.code]).flatten).flatten⟩))

/-- SET_LEVEL (R54, R55, R178): refused by its form; otherwise the selected channels take the level and become FREE, the FADING
entries for them become OVERRIDDEN, and each instance left with no WAITING or FADING entry completes PARTIAL, oldest first, with its
CUE_DONE report. -/
def Obligations.SetLevelOverrides : Prop :=
  (∀ (s : State) (q : Byte), FormRefusals s q .setLevel (.setLevel q)) ∧
  ∀ (s : State) (q : Byte) (mask : Half) (level : Nat), EngineSound s → mask ≠ 0 → level ≤ 1000 →
    Executes s .setLevel q (maskBytes mask ++ bytes16 level) →
      let overridden := s.active.map fun i => { i with
        entries := i.entries.map fun e =>
          if selects mask e.entry.channel = true ∧ e.isFading = true then { e with state := .overridden } else e }
      let written := { s with
        channels := Vector.ofFn fun c =>
          let ch := { s.channels[c] with level := level, owner := none }
          if selects mask c then { ch with driveCode := s.codeOf ch } else s.channels[c]
        active := overridden.filter fun i => i.entries.any EntryCopy.isLive }
      exec (.setLevel q (maskBytes mask ++ bytes16 level)) s =
        .next (answered
          ((overridden.filter fun i => !(i.entries.any EntryCopy.isLive)).foldl
            (fun (u : State) (i : Instance) => u.report (.cueDone i.id i.cue .partialDone (i.count (· == .done)) (i.count (· == .taken))
              (i.count (· == .overridden)) (i.count (· == .cut)))) written)
          .setLevel q (maskBytes mask ++ bytes16 level) ⟨.ok, []⟩)

/-! ## Profiles -/

/-- SET_PROFILE (R82, R83, R84): refused by its form; HOLD from STANDBY is refused PROFILE; the profile in force named again changes
nothing; any other becomes the profile in force, `held_from` is written on entering HOLD, and every drive code is recomputed. -/
def Obligations.SetProfileChangesTheProfile : Prop :=
  (∀ (s : State) (q : Byte), FormRefusals s q .setProfile (.setProfile q)) ∧
  ∀ (s : State) (q : Byte) (p : Profile), Executes s .setProfile q [p.code] →
    (p = .hold → s.profile = .standby →
      exec (.setProfile q [p.code]) s = .next (answered s .setProfile q [p.code] ⟨.profile, []⟩)) ∧
    (p = s.profile → exec (.setProfile q [p.code]) s = .next (answered s .setProfile q [p.code] ⟨.ok, []⟩)) ∧
    (p ≠ s.profile → ¬(p = .hold ∧ s.profile = .standby) →
      let left : RunProfile := match p, s.profile with
        | .hold, .active => .active
        | .hold, .economy => .economy
        | _, _ => s.heldFrom
      let changed := { s with profile := p, heldFrom := left }
      exec (.setProfile q [p.code]) s =
        .next (answered { changed with channels := allRecoded changed } .setProfile q [p.code] ⟨.ok, []⟩))

/-- Entering HOLD from a running profile, and leaving it for the profile that `held_from` names, leaves every drive code as it was
(R80, R84). -/
def Obligations.HoldKeepsTheCodes : Prop :=
  ∀ (s t : State) (q : Byte) (p : Profile), CodesCurrent s → Executes s .setProfile q [p.code] →
    exec (.setProfile q [p.code]) s = .next t →
      (p = .hold ∧ s.profile ≠ .standby) ∨ (s.profile = .hold ∧ p = s.heldFrom.toProfile) → t.channels = s.channels

/-- SET_CEILING (R85): refused by its form; otherwise the named profile's class is set; the drive codes are recomputed when that
profile's ceiling is in force, and stand otherwise. -/
def Obligations.SetCeilingSetsTheClass : Prop :=
  (∀ (s : State) (q : Byte), FormRefusals s q .setCeiling (.setCeiling q)) ∧
  ∀ (s : State) (q : Byte) (p : RunProfile) (k : Fin 6), Executes s .setCeiling q [p.code, byteOf k.val] →
    let changed := match p with
      | .active => { s with activeClass := k }
      | .economy => { s with economyClass := k }
    (CeilingInForce s p → exec (.setCeiling q [p.code, byteOf k.val]) s =
      .next (answered { changed with channels := allRecoded changed } .setCeiling q [p.code, byteOf k.val] ⟨.ok, []⟩)) ∧
    (¬ CeilingInForce s p → exec (.setCeiling q [p.code, byteOf k.val]) s =
      .next (answered changed .setCeiling q [p.code, byteOf k.val] ⟨.ok, []⟩))

/-! ## The Cue Table and the Arm Slot -/

/-- CUE_LOAD (R26, R27): its refusals in their order, and the replacement of the record whole. -/
def Obligations.CueLoadReplacesTheRecord : Prop :=
  ∀ (s : State) (q : Byte),
    (∀ p : List Byte, Executes s .cueLoad q p →
      (p.length < 3 ∨ ∃ c f n rest, p = c :: f :: n :: rest ∧ rest.length ≠ 7 * n.toNat) →
        exec (.cueLoad q p) s = .next (answered s .cueLoad q p ⟨.badLength, []⟩)) ∧
    (∀ (c f : Byte) (fields : List EntryFields),
      let payload := c :: f :: byteOf fields.length :: (fields.map EntryFields.bytes).flatten
      Executes s .cueLoad q payload →
        (c = 0 ∨ 32 < c.toNat ∨ 32 < f.toNat ∨ fields.length = 0 ∨ 16 < fields.length ∨ ∃ x ∈ fields, x.OutOfRange) →
          exec (.cueLoad q payload) s = .next (answered s .cueLoad q payload ⟨.range, []⟩)) ∧
    ∀ (c : CueIdx) (r : CueRecord), (∀ e ∈ r.entries, EntryInRange e) → 1 ≤ r.entries.length → r.entries.length ≤ 16 →
      Executes s .cueLoad q (recordBytes c r) →
        (¬ (r.entries.map CueEntry.channel).Nodup →
          exec (.cueLoad q (recordBytes c r)) s = .next (answered s .cueLoad q (recordBytes c r) ⟨.duplicate, []⟩)) ∧
        ((r.entries.map CueEntry.channel).Nodup →
          exec (.cueLoad q (recordBytes c r)) s =
            .next (answered { s with cues := s.cues.set c (some r) } .cueLoad q (recordBytes c r) ⟨.ok, []⟩))

/-- CUE_ARM (R65), CUE_DISARM (R66) and CUE_CLEAR (R29), with their refusals by form (R179, R181). -/
def Obligations.ArmSlotRequests : Prop :=
  (∀ (s : State) (q : Byte), FormRefusals s q .cueArm (.cueArm q) ∧ FormRefusals s q .cueDisarm (.cueDisarm q) ∧
    FormRefusals s q .cueClear (.cueClear q)) ∧
  ∀ (s : State) (q : Byte) (c : CueIdx),
    (∀ m : ArmMode, Executes s .cueArm q [byteOf (c.val + 1), m.code] →
      (s.cues[c] = none → exec (.cueArm q [byteOf (c.val + 1), m.code]) s =
        .next (answered s .cueArm q [byteOf (c.val + 1), m.code] ⟨.empty, []⟩)) ∧
      (s.cues[c] ≠ none → exec (.cueArm q [byteOf (c.val + 1), m.code]) s =
        .next (answered { s with armed := some ⟨c, m⟩ } .cueArm q [byteOf (c.val + 1), m.code] ⟨.ok, []⟩))) ∧
    (Executes s .cueDisarm q [] →
      exec (.cueDisarm q []) s = .next (answered { s with armed := none } .cueDisarm q [] ⟨.ok, []⟩)) ∧
    (Executes s .cueClear q [byteOf (c.val + 1)] →
      ((∃ m, s.armed = some ⟨c, m⟩) → exec (.cueClear q [byteOf (c.val + 1)]) s =
        .next (answered s .cueClear q [byteOf (c.val + 1)] ⟨.inUse, []⟩)) ∧
      ((∀ m, s.armed ≠ some ⟨c, m⟩) → exec (.cueClear q [byteOf (c.val + 1)]) s =
        .next (answered { s with cues := s.cues.set c none } .cueClear q [byteOf (c.val + 1)] ⟨.ok, []⟩)))

/-- Whenever the Arm Slot is not empty, the cue it names is a defined cue record (R64). -/
def Obligations.ArmedCueStaysDefined : Prop :=
  ∀ (c : Instr) (s t : State), ArmDefined s → exec c s = .next t → ArmDefined t

/-! ## Starts -/

/-- CUE_GO (R40, R39): refused by its form, then PROFILE, EMPTY or FULL, in that order; otherwise the instance is built from the
record and joins the tail, the entries with delay 0 start in entry order, the sweep runs, no CUE_STARTED report is queued, and the
reply carries the id. -/
def Obligations.CueGoStartsTheCue : Prop :=
  (∀ (s : State) (q : Byte), FormRefusals s q .cueGo (.cueGo q)) ∧
  ∀ (s : State) (q : Byte) (c : CueIdx), Executes s .cueGo q [byteOf (c.val + 1)] →
    let refusedWith (why : Status) : Prop :=
      exec (.cueGo q [byteOf (c.val + 1)]) s = .next (answered s .cueGo q [byteOf (c.val + 1)] ⟨why, []⟩)
    (s.profile.running = false → refusedWith .profile) ∧
    (s.profile.running = true → s.cues[c] = none → refusedWith .empty) ∧
    (s.profile.running = true → s.cues[c] ≠ none → 4 ≤ s.active.length → refusedWith .full) ∧
    ∀ r, s.profile.running = true → s.cues[c] = some r → s.active.length < 4 →
      let id := s.issueId
      let fresh : Instance := { id := id, cue := some c, source := .request, follow := r.follow, elapsed := 0,
                                entries := r.entries.map fun e => { entry := e, state := .waiting } }
      let joined := { s with
        nextId := nextIdAfter id
        active := s.active ++ [fresh] }
      exec (.cueGo q [byteOf (c.val + 1)]) s =
        .next (answered (joined.startEntries id (r.entries.filter fun e => decide (e.delay = 0))).sweep
          .cueGo q [byteOf (c.val + 1)] ⟨.ok, [id]⟩)

/-- A cue whose entries all have a delay above 0 only joins the tail of the Active List at its start: its entries stay WAITING, and
no channel and no other instance changes (R39). Its id is the first value from the counter on that no instance holds, and the
counter takes the value following it (R38). -/
def Obligations.DelayedCueJoinsTheTail : Prop :=
  ∀ (s : State) (q : Byte) (c : CueIdx) (r : CueRecord), EngineSound s → Executes s .cueGo q [byteOf (c.val + 1)] →
    s.profile.running = true → s.cues[c] = some r → s.active.length < 4 → (∀ e ∈ r.entries, 0 < e.delay) →
      ∃ (n : Nat) (id : Byte), n ≤ s.active.length ∧ id = nextIdAfter^[n] s.nextId ∧ id ≠ 0 ∧ (∀ i ∈ s.active, i.id ≠ id) ∧
        (∀ m < n, ∃ i ∈ s.active, i.id = nextIdAfter^[m] s.nextId) ∧
        let fresh : Instance := { id := id, cue := some c, source := .request, follow := r.follow, elapsed := 0,
                                  entries := r.entries.map fun e => { entry := e, state := .waiting } }
        exec (.cueGo q [byteOf (c.val + 1)]) s =
          .next (answered
            { s with
              nextId := if id = 255 then 1 else id + 1
              active := s.active ++ [fresh] }
            .cueGo q [byteOf (c.val + 1)] ⟨.ok, [id]⟩)

/-- An entry's start (R43), row by row: on a FREE channel, on one OWNED by an older instance, and on one OWNED by a newer instance,
which leaves the channel as it is. That the rows with fade 0 recompute the drive code also where the level stands is the model's
choice (DEDUCED, log 17): it keeps the code wherever the codes are current (R2). -/
def Obligations.EntryStartTable : Prop :=
  ∀ (s : State) (older newer : List Instance) (i : Instance) (e : CueEntry),
    s.active = older ++ i :: newer → (s.active.map Instance.id).Nodup → { entry := e, state := .waiting } ∈ i.entries →
      let ch := s.channels[e.channel]
      let others := fun j : Instance => { j with
        entries := j.entries.map fun x =>
          if x.entry.channel = e.channel ∧ x.isFading = true then { x with state := .taken } else x }
      let becomes := fun out : EntryState => { i with
        entries := i.entries.map fun x => if x.entry.channel = e.channel then { x with state := out } else x }
      let set := fun new : Channel => Vector.ofFn fun c => if c = e.channel then new else s.channels[c]
      ((∃ j ∈ newer, ch.owner = some j.id) →
        s.startEntry i.id e = { s with active := older ++ becomes .taken :: newer }) ∧
      (ch.owner = none ∨ (∃ j ∈ older, ch.owner = some j.id) →
        (e.fade = 0 →
          let new := { ch with level := e.target, owner := none }
          s.startEntry i.id e = { s with
            channels := set { new with driveCode := s.codeOf new }
            active := older.map others ++ becomes .done :: newer.map others }) ∧
        (0 < e.fade →
          s.startEntry i.id e = { s with
            channels := set { ch with owner := some i.id }
            active := older.map others ++ becomes (.fading ch.level 0) :: newer.map others }))

/-! ## The fade clock -/

/-- An expiry in HOLD or STANDBY (R46, R50, R74): the uptime advances, every follow start present is refused in list order, and
nothing else changes. The clock is the model's (log 3). -/
def Obligations.PausedExpiry : Prop :=
  ∀ s : State, s.isHeld = false → s.profile.running = false →
    exec .fadeClockExpiry s =
      .next (s.follows.foldl
        (fun (u : State) (c : CueIdx) => u.report (.startRefused c .follow (if s.cues[c] = none then .empty else .profile)))
        { s with
          clock := max s.clock s.fadeDue
          fadeDue := s.fadeDue + 10000
          uptime := s.uptime + 1
          follows := [] })

/-- An expiry in ACTIVE or ECONOMY makes the steps of R46 in their order: the fades step, `elapsed` of every instance advances by one,
the entries whose delay ends start channel by channel (NewestDueEntryStarts says how), the sweep runs, and the service of the Follow
List serves the follow starts present when it begins, each removed from the head and then started or refused EMPTY, PROFILE or FULL
(R73). The clock is the model's (log 3). -/
def Obligations.RunningExpiry : Prop :=
  (∀ s : State, s.isHeld = false → s.profile.running = true →
    let ticked := { s with clock := max s.clock s.fadeDue, fadeDue := s.fadeDue + 10000, uptime := s.uptime + 1 }
    let swept := ticked.stepFades.advanceElapsed.startDue.sweep
    exec .fadeClockExpiry s = .next (State.serveOne^[swept.follows.length] swept)) ∧
  (∀ (u : State) (c : CueIdx) (rest : List CueIdx), u.follows = c :: rest →
    let left := { u with follows := rest }
    (u.cues[c] = none → u.serveOne = left.report (.startRefused c .follow .empty)) ∧
    (u.cues[c] ≠ none → u.profile.running = false → u.serveOne = left.report (.startRefused c .follow .profile)) ∧
    (u.cues[c] ≠ none → u.profile.running = true → 4 ≤ u.active.length →
      u.serveOne = left.report (.startRefused c .follow .full)) ∧
    ∀ r, u.cues[c] = some r → u.profile.running = true → u.active.length < 4 →
      let id := u.issueId
      let fresh : Instance := { id := id, cue := some c, source := .follow, follow := r.follow, elapsed := 0,
                                entries := r.entries.map fun e => { entry := e, state := .waiting } }
      let joined := { left with
        nextId := nextIdAfter id
        active := u.active ++ [fresh] }
      u.serveOne = ((joined.report (.cueStarted id c .follow)).startEntries id
        (r.entries.filter fun e => decide (e.delay = 0))).sweep) ∧
  (∀ u : State, u.advanceElapsed = { u with active := u.active.map fun i => { i with elapsed := i.elapsed + 1 } }) ∧
  ∀ u : State, u.startDue = (List.finRange 16).foldl (fun (v : State) (c : ChannelNo) => v.startDueOn c) u

/-- The step of a FADING entry (R47): the level becomes the start level plus the quotient truncated toward zero; at the final step
it is the target, the entry is DONE and the channel FREE; at no step does it pass the target or move away from it; FREE channels
stand. That a step recomputes the drive code also where it leaves the level where it stood is the model's choice (DEDUCED, log 17): it
keeps the code wherever the codes are current (R9, R47). -/
def Obligations.FadeStepFollowsR47 : Prop :=
  (∀ (s : State) (i : Instance) (e : EntryCopy) (start step : Nat), EngineSound s → i ∈ s.active → e ∈ i.entries →
    e.state = .fading start step → step < e.entry.fade →
      let level := ((start : Int) + Int.tdiv (((e.entry.target : Int) - start) * (step + 1)) e.entry.fade).toNat
      let moved := { s.channels[e.entry.channel] with level := level }
      (step + 1 < e.entry.fade →
        s.stepFades.channels[e.entry.channel] = { moved with driveCode := s.codeOf moved } ∧
        e.stepped = { e with state := .fading start (step + 1) }) ∧
      (step + 1 = e.entry.fade → level = e.entry.target ∧
        s.stepFades.channels[e.entry.channel] = { moved with owner := none, driveCode := s.codeOf moved } ∧
        e.stepped = { e with state := .done })) ∧
  (∀ (s : State) (c : ChannelNo), EngineSound s → s.channels[c].owner = none → s.stepFades.channels[c] = s.channels[c]) ∧
  (∀ s : State, s.stepFades.active = s.active.map fun i => { i with entries := i.entries.map EntryCopy.stepped }) ∧
  ∀ start target k n : Nat, k < n →
    let v (m : Nat) : Int := (start : Int) + Int.tdiv (((target : Int) - start) * m) n
    (start ≤ target → (start : Int) ≤ v k ∧ v k ≤ v (k + 1) ∧ v (k + 1) ≤ target) ∧
    (target ≤ start → (target : Int) ≤ v (k + 1) ∧ v (k + 1) ≤ v k ∧ v k ≤ start)

/-- Step 4 of an expiry (R46, R48). On one channel the entry of the newest instance whose delay ends starts under R43, and every other
becomes TAKEN without acting; with no delay ending, nothing changes. Over all channels, each channel and the entries for it are as
its own starts leave them, whatever the other channels' starts do; no entry stays WAITING at the end of its delay; nothing changes
but the channels and the states of entries. -/
def Obligations.NewestDueEntryStarts : Prop :=
  (∀ (s : State) (c : ChannelNo) (older newer : List Instance) (i : Instance) (e : CueEntry),
    s.active = older ++ i :: newer → (s.active.map Instance.id).Nodup →
      (∀ j ∈ s.active, (j.entries.map fun x => x.entry.channel).Nodup) →
      { entry := e, state := .waiting } ∈ i.entries → e.channel = c → e.delay = i.elapsed →
      (∀ j ∈ newer, ∀ x ∈ j.entries, ¬(x.entry.channel = c ∧ x.state = .waiting ∧ x.entry.delay = j.elapsed)) →
        let loses (j : Instance) : Instance := { j with
          entries := j.entries.map fun x =>
            if x.entry.channel = c ∧ x.state = .waiting ∧ x.entry.delay = j.elapsed then { x with state := .taken } else x }
        let left : State := { s with active := older.map loses ++ i :: newer }
        s.startDueOn c = left.startEntry i.id e) ∧
  (∀ (s : State) (c : ChannelNo),
    (∀ j ∈ s.active, ∀ x ∈ j.entries, ¬(x.entry.channel = c ∧ x.state = .waiting ∧ x.entry.delay = j.elapsed)) →
      s.startDueOn c = s) ∧
  ∀ s : State,
    let entriesOn (c : ChannelNo) (u : State) : List (List EntryCopy) :=
      u.active.map fun j => j.entries.filter fun x => decide (x.entry.channel = c)
    let unstarted (u : State) : List Instance :=
      u.active.map fun j => { j with entries := j.entries.map fun x => { x with state := .waiting } }
    (∀ c : ChannelNo, s.startDue.channels[c] = (s.startDueOn c).channels[c] ∧
      entriesOn c s.startDue = entriesOn c (s.startDueOn c)) ∧
    (∀ j ∈ s.startDue.active, ∀ x ∈ j.entries, ¬(x.state = .waiting ∧ x.entry.delay = j.elapsed)) ∧
    unstarted s.startDue = unstarted s ∧
    s.startDue = { s with channels := s.startDue.channels, active := s.startDue.active }

/-- The completion sweep (R51): the instances with no WAITING and no FADING entry leave the list and complete, oldest first, each
whole before the next. A completion (R52, R53, R72) queues CUE_DONE with its outcome and counts; COMPLETE with a follow hands it on,
or drops it with START_REFUSED FULL when four wait. -/
def Obligations.SweepCompletesTheFinished : Prop :=
  (∀ s : State,
    s.sweep = (s.active.filter fun i => !(i.entries.any EntryCopy.isLive)).foldl State.complete
      { s with active := s.active.filter fun i => i.entries.any EntryCopy.isLive }) ∧
  ∀ (s : State) (i : Instance),
    let done (out : CueOutcome) : State :=
      s.report (.cueDone i.id i.cue out (i.count (· == .done)) (i.count (· == .taken))
      (i.count (· == .overridden)) (i.count (· == .cut)))
    ((∃ e ∈ i.entries, e.state ≠ .done) → s.complete i = done .partialDone) ∧
    ((∀ e ∈ i.entries, e.state = .done) → i.follow = none → s.complete i = done .complete) ∧
    (∀ c, (∀ e ∈ i.entries, e.state = .done) → i.follow = some c → s.follows.length < 4 →
      s.complete i = ({ done .complete with follows := s.follows ++ [c] } : State)) ∧
    (∀ c, (∀ e ∈ i.entries, e.state = .done) → i.follow = some c → 4 ≤ s.follows.length →
      s.complete i = (done .complete).report (.startRefused c .follow .full))

/-! ## Stops -/

/-- CUE_STOP (R56, R182): refused by its form; refused NOT_FOUND when no instance holds the id; otherwise the instance leaves the
list, the channels of its FADING entries become FREE at the level they have, and CUE_DONE is queued with outcome STOPPED, its
WAITING and FADING entries counted CUT. -/
def Obligations.CueStopStopsOne : Prop :=
  (∀ (s : State) (q : Byte), FormRefusals s q .cueStop (.cueStop q)) ∧
  ∀ (s : State) (q id : Byte), Executes s .cueStop q [id] →
    ((∀ i ∈ s.active, i.id ≠ id) → exec (.cueStop q [id]) s = .next (answered s .cueStop q [id] ⟨.notFound, []⟩)) ∧
    ∀ (older newer : List Instance) (i : Instance),
      s.active = older ++ i :: newer → (s.active.map Instance.id).Nodup → i.id = id →
        let left : State := { s with
          channels := Vector.ofFn fun c =>
            if i.fades c = true then { s.channels[c] with owner := none } else s.channels[c]
          active := older ++ newer }
        exec (.cueStop q [id]) s =
          .next (answered
            (left.report
              (.cueDone i.id i.cue .stopped (i.count (· == .done)) (i.count (· == .taken)) (i.count (· == .overridden))
                (i.entries.filter fun e => e.isLive || e.state == .cut).length))
            .cueStop q [id] ⟨.ok, []⟩)

/-- CUE_STOP_ALL (R57): both lists end empty, every channel is FREE at the level it has, one CUE_DONE report is queued for each
instance in list order, and nothing else changes. -/
def Obligations.CueStopAllStopsAll : Prop :=
  ∀ (s : State) (q : Byte), EngineSound s → Executes s .cueStopAll q [] →
    exec (.cueStopAll q []) s =
      .next (answered
        (s.active.foldl
          (fun (u : State) (i : Instance) => u.report (.cueDone i.id i.cue .stopped (i.count (· == .done)) (i.count (· == .taken))
            (i.count (· == .overridden)) (i.entries.filter fun e => e.isLive || e.state == .cut).length))
          { s with
            channels := Vector.ofFn fun c => { s.channels[c] with owner := none }
            active := []
            follows := [] })
        .cueStopAll q [] ⟨.ok, []⟩)

/-! ## The GO line -/

/-- A falling edge on GO (R67): not taken in START or within 20 ms of the last taken edge, nor while a reset condition holds the part
(R123; the event is then none, log 2) or a RESTART's reply has been sent (the model's choice, log 8). A taken edge sets the filter's
time and, with a cue armed, starts it with source GO_LINE, or reports PROFILE or FULL and keeps the arm (R68, R69). -/
def Obligations.GoEdgeFiresTheArmedCue : Prop :=
  ∀ s : State,
    (s.phase ≠ .ready ∨ (∃ t, s.goEdge = some t ∧ s.clock < t + 20000) → exec .goFallingEdge s = .next s) ∧
    (s.phase = .ready → (s.goEdge = none ∨ ∃ t, s.goEdge = some t ∧ t + 20000 ≤ s.clock) →
      let marked := { s with goEdge := some s.clock }
      (s.armed = none → exec .goFallingEdge s = .next marked) ∧
      ∀ a, s.armed = some a → s.cues[a.cue] ≠ none →
        (s.profile.running = false →
          exec .goFallingEdge s = .next (marked.report (.startRefused a.cue .goLine .profile))) ∧
        (s.profile.running = true → 4 ≤ s.active.length →
          exec .goFallingEdge s = .next (marked.report (.startRefused a.cue .goLine .full))) ∧
        ∀ r, s.profile.running = true → s.cues[a.cue] = some r → s.active.length < 4 →
          let id := s.issueId
          let fresh : Instance := { id := id, cue := some a.cue, source := .goLine, follow := r.follow, elapsed := 0,
                                    entries := r.entries.map fun e => { entry := e, state := .waiting } }
          let joined := { marked with
            nextId := nextIdAfter id
            active := s.active ++ [fresh] }
          let started := ((joined.report (.cueStarted id a.cue .goLine)).startEntries id
            (r.entries.filter fun e => decide (e.delay = 0))).sweep
          exec .goFallingEdge s = .next { started with armed := if a.mode = .once then none else some a })

/-- The laws of the Cue Engine hold after every command that finds them: at most four instances with distinct ids (R35), a channel
owned exactly while its owner's entry for it is FADING (R42), each instance with something left to do (R51), entries in their
instance's time (R46, R47), cue records well shaped (R24), at most four follow starts (R71). -/
def Obligations.EngineSoundIsKept : Prop :=
  ∀ (c : Instr) (s t : State), EngineSound s → exec c s = .next t → EngineSound t

/-- The uptime counter advances by one at every fade-clock expiry, wrapping, returns to 0 at the reset base, and is changed by no
other command (R49). An event that cannot take place changes nothing (log 2), nor does an expiry after the reply of a RESTART (log 8).
-/
def Obligations.UptimeCountsExpiries : Prop :=
  ∀ (c : Instr) (s t : State), exec c s = .next t →
    t.uptime = match c with
      | .fadeClockExpiry => if s.isHeld then s.uptime else s.uptime + 1
      | .resetBase _ _ => if s.isHeld then 0 else s.uptime
      | _ => s.uptime

/-! ## The retained store -/

/-- STORE_PROGRAM (R101, R102, R103): its refusals in their order; accepted, it marks the lowest BLANK generation WRITING and takes
the snapshot of its kind. That the in-flight record holds the moment of acceptance, on the clock, in place of R102's remaining time of
48 ms is the model's choice (logs 3 and 15). -/
def Obligations.StoreProgramTakesASnapshot : Prop :=
  ∀ (s : State) (q : Byte),
    (∀ p : List Byte, Executes s .storeProgram q p → p.length ≠ (if p.head? = some 0x03 then 5 else 2) →
      exec (.storeProgram q p) s = .next (answered s .storeProgram q p ⟨.badLength, []⟩)) ∧
    (∀ b g : Byte, Executes s .storeProgram q [b, g] → b ≠ 0x03 → (b = 0 ∨ 4 < b.toNat ∨ g = 0 ∨ 4 < g.toNat) →
      exec (.storeProgram q [b, g]) s = .next (answered s .storeProgram q [b, g] ⟨.range, []⟩)) ∧
    (∀ g f1 f0 pr : Byte, Executes s .storeProgram q [0x03, g, f1, f0, pr] →
      (g = 0 ∨ 4 < g.toNat ∨ 60000 < word16 f1 f0 ∨ 1 < pr.toNat) →
        exec (.storeProgram q [0x03, g, f1, f0, pr]) s =
          .next (answered s .storeProgram q [0x03, g, f1, f0, pr] ⟨.range, []⟩)) ∧
    ∀ (k : RecordKind) (g : GenIdx) (fade : Nat) (pr : RunProfile), fade ≤ 60000 →
      let payload : List Byte := match k with
        | .startup => [0x03, byteOf (g.val + 1)] ++ bytes16 fade ++ [pr.code]
        | _ => [k.code, byteOf (g.val + 1)]
      let snapshot : Content := match k with
        | .curves => .curves s.curves
        | .trims => .trims (Vector.ofFn fun c => s.channels[c].overrideTrim)
        | .startup => .startup
            { channels := Vector.ofFn fun c =>
                { level := s.channels[c].level, slot := s.channels[c].slot, source := s.channels[c].source }
              fade := fade, profile := pr, activeClass := s.activeClass, economyClass := s.economyClass }
        | .label => .label s.label
      let states : Vector GenState 4 := match k with
        | .curves => s.map.curves
        | .trims => s.map.trims
        | .startup => s.map.startup
        | .label => s.map.label
      let answers (t : State) (r : Reply) : Prop :=
        exec (.storeProgram q payload) s = .next (answered t .storeProgram q payload r)
      Executes s .storeProgram q payload →
        (s.inFlight ≠ none → answers s ⟨.busy, []⟩) ∧
        (s.inFlight = none → (∀ g' : GenIdx, states[g'] = .good ∨ states[g'] = .bad) → answers s ⟨.exhausted, []⟩) ∧
        (s.inFlight = none → (∃ g' : GenIdx, states[g'] ≠ .good ∧ states[g'] ≠ .bad) → ¬ LowestBlank states g →
          answers s ⟨.stale, []⟩) ∧
        (s.inFlight = none → LowestBlank states g →
          answers
            { s with
              map := mapWith s.map g .writing k
              inFlight := some { generation := g, snapshot := snapshot, acceptedAt := s.clock } }
            ⟨.accepted, [byteOf (g.val + 1)]⟩)

/-- Program completion (R105, R106): in the array the generation is found GOOD with the snapshot's content, or BAD, in the map it takes
the outcome, and every other place stands (R96, R97); PROGRAM_DONE is queued, a GOOD TRIMS program writes the stored trims and
recomputes the channels whose source is STORED, and the in-flight record becomes none. With no program in flight the event is none
(log 2). The clock moves to the end of the program time, 48 ms after the moment of acceptance that the record holds (logs 3 and 15).
-/
def Obligations.ProgramCompletionSettles : Prop :=
  ∀ (s : State) (o : ReadBack), s.isHeld = false →
    (s.inFlight = none → exec (.programCompletion o) s = .next s) ∧
    ∀ p, s.inFlight = some p →
      let kind : RecordKind := match p.snapshot with
        | .curves _ => .curves
        | .trims _ => .trims
        | .startup _ => .startup
        | .label _ => .label
      let outcome : GenState := match o with
        | .good => .good
        | .bad => .bad
      let reported := { s with
        clock := max s.clock (p.acceptedAt + 48000)
        array := arrayWith s.array p.generation p.snapshot o
        map := mapWith s.map p.generation outcome kind }.report (.programDone kind p.generation o)
      (o = .bad ∨ kind ≠ .trims →
        exec (.programCompletion o) s = .next { reported with inFlight := none }) ∧
      ∀ trims, o = .good → p.snapshot = .trims trims →
        exec (.programCompletion o) s = .next { reported with
          inFlight := none
          channels := Vector.ofFn fun c =>
            let ch := { s.channels[c] with storedTrim := trims[c] }
            if ch.source = .stored then { ch with driveCode := s.codeOf ch } else ch }

/-- STORE_LOAD of CURVES, TRIMS and LABEL (R100, R109 to R113): refused BUSY while a program is in flight, and CURVES refused IN_USE
while an OWNED channel is bound to a slot 1 to 7; otherwise the content of the newest GOOD generation, or the defaults where none is
GOOD, and the generation loaded in the reply. -/
def Obligations.StoreLoadReloads : Prop :=
  ∀ (s : State) (q : Byte),
    (Executes s .storeLoad q [0x01] →
      let answers (t : State) (r : Reply) : Prop := exec (.storeLoadCurves q) s = .next (answered t .storeLoad q [0x01] r)
      let loaded (curves : Vector Curve 7) : State :=
        let t := { s with curves := curves }
        { t with channels := Vector.ofFn fun c =>
            let ch := s.channels[c]
            if ch.slot ≠ 0 then { ch with driveCode := t.codeOf ch } else ch }
      (s.inFlight ≠ none → answers s ⟨.busy, []⟩) ∧
      (s.inFlight = none → (∃ c : ChannelNo, s.channels[c].owned = true ∧ s.channels[c].slot ≠ 0) → answers s ⟨.inUse, []⟩) ∧
      (s.inFlight = none → (∀ c : ChannelNo, s.channels[c].owned = true → s.channels[c].slot = 0) →
        (∀ g x, NewestGood s.map.curves g → s.array.curves[g] = .good x → answers (loaded x) ⟨.ok, [byteOf (g.val + 1)]⟩) ∧
        ((∀ g : GenIdx, s.map.curves[g] ≠ .good) →
          answers (loaded (Vector.replicate 7 [⟨0, 0⟩, ⟨1000, 4095⟩])) ⟨.ok, [0]⟩))) ∧
    (Executes s .storeLoad q [0x02] →
      let answers (t : State) (r : Reply) : Prop := exec (.storeLoadTrims q) s = .next (answered t .storeLoad q [0x02] r)
      let loaded (trims : ChannelNo → Int) : State :=
        { s with channels := Vector.ofFn fun c =>
            let ch := { s.channels[c] with storedTrim := trims c }
            if ch.source = .stored then { ch with driveCode := s.codeOf ch } else ch }
      (s.inFlight ≠ none → answers s ⟨.busy, []⟩) ∧
      (s.inFlight = none →
        (∀ g x, NewestGood s.map.trims g → s.array.trims[g] = .good x →
          answers (loaded fun c => x[c]) ⟨.ok, [byteOf (g.val + 1)]⟩) ∧
        ((∀ g : GenIdx, s.map.trims[g] ≠ .good) → answers (loaded fun _ => 0) ⟨.ok, [0]⟩))) ∧
    (Executes s .storeLoad q [0x04] →
      let answers (t : State) (r : Reply) : Prop := exec (.storeLoadLabel q) s = .next (answered t .storeLoad q [0x04] r)
      (s.inFlight ≠ none → answers s ⟨.busy, []⟩) ∧
      (s.inFlight = none →
        (∀ g x, NewestGood s.map.label g → s.array.label[g] = .good x →
          answers { s with label := x } ⟨.ok, [byteOf (g.val + 1)]⟩) ∧
        ((∀ g : GenIdx, s.map.label[g] ≠ .good) →
          answers { s with label := Vector.replicate 16 0x20 } ⟨.ok, [0]⟩)))

/-- STORE_LOAD of STARTUP, the replay (R114, R115, R87): its refusals in their order; otherwise the start-up instance of the newest
GOOD generation joins the tail with one entry for each channel, the entries start in channel order, and the sweep runs. -/
def Obligations.ReplayStartsTheScene : Prop :=
  ∀ (s : State) (q : Byte), Executes s .storeLoad q [0x03] →
    let answers (t : State) (r : Reply) : Prop := exec (.storeLoadStartup q) s = .next (answered t .storeLoad q [0x03] r)
    (s.profile.running = false → answers s ⟨.profile, []⟩) ∧
    (s.profile.running = true → s.inFlight ≠ none → answers s ⟨.busy, []⟩) ∧
    (s.profile.running = true → s.inFlight = none → (∀ g : GenIdx, s.map.startup[g] ≠ .good) → answers s ⟨.empty, []⟩) ∧
    ∀ g x, s.profile.running = true → s.inFlight = none → NewestGood s.map.startup g → s.array.startup[g] = .good x →
      ((∃ i ∈ s.active, i.id = 0) → answers s ⟨.inUse, []⟩) ∧
      ((∀ i ∈ s.active, i.id ≠ 0) → 4 ≤ s.active.length → answers s ⟨.full, []⟩) ∧
      ((∀ i ∈ s.active, i.id ≠ 0) → s.active.length < 4 →
        let entries : List CueEntry := (List.finRange 16).map fun c =>
          { channel := c, target := x.channels[c].level, fade := x.fade, delay := 0 }
        let scene : Instance := { id := 0, cue := none, source := .startup, follow := none, elapsed := 0,
                                  entries := entries.map fun e => { entry := e, state := .waiting } }
        let joined := { s with active := s.active ++ [scene] }
        answers (joined.startEntries 0 entries).sweep ⟨.ok, [byteOf (g.val + 1)]⟩)

/-- The laws of the Retained Store hold after every command that finds them: used generations grow from generation 1 without a gap
(R97), the map shows the array but for the one program in flight (R97, R100), a cut program is found BAD (R107; at once in the
array, log 10). -/
def Obligations.StoreSoundIsKept : Prop :=
  ∀ (c : Instr) (s t : State), StoreSound s → exec c s = .next t → StoreSound t

/-- A generation found GOOD or BAD is found in the same state, with the same content, after every command (R96). -/
def Obligations.FoundStateIsPermanent : Prop :=
  ∀ (c : Instr) (s t : State) (g : GenIdx), StoreSound s → exec c s = .next t →
    (s.array.curves[g] ≠ .blank → t.array.curves[g] = s.array.curves[g]) ∧
    (s.array.trims[g] ≠ .blank → t.array.trims[g] = s.array.trims[g]) ∧
    (s.array.startup[g] ≠ .blank → t.array.startup[g] = s.array.startup[g]) ∧
    (s.array.label[g] ≠ .blank → t.array.label[g] = s.array.label[g])

/-! ## The part and its resets -/

/-- HELLO (R169), STATUS (R170), STORE_STATUS (R116, R184), LABEL_SET (R99, R187) and RESTART (R124, R172). The reading of the
remaining time is log 15. -/
def Obligations.PartRequests : Prop :=
  ∀ (s : State) (q : Byte),
    (Executes s .hello q [] →
      exec (.hello q []) s =
        .next (answered s .hello q []
          ⟨.ok, [0x52, 0xD4, 0x0B, 0x16, 0x01] ++ bytes32 s.serial ++ [0x01] ++ s.label.toList⟩)) ∧
    (Executes s .status q [] →
      let arm : List Byte := match s.armed with
        | none => [0, 0]
        | some a => [byteOf (a.cue.val + 1), a.mode.code]
      let busy : List Byte := match s.inFlight with
        | none => [0, 0, 0]
        | some p => [1, p.snapshot.kind.code, byteOf (p.generation.val + 1)]
      exec (.status q []) s =
        .next (answered s .status q []
          ⟨.ok, [s.profile.code, s.heldFrom.code, byteOf s.activeClass.val, byteOf s.economyClass.val, levelCode s.oe,
            byteOf s.active.length] ++ arm ++
            [byteOf s.follows.length, byteOf (s.reports.length + (if s.overflow = none then 0 else 1))] ++ busy ++
            [s.cause.code] ++ bytes32 s.uptime⟩)) ∧
    (Executes s .storeStatus q [] →
      let states (m : Vector GenState 4) : List Byte := [m[0].code, m[1].code, m[2].code, m[3].code]
      let used (m : Vector GenState 4) : Byte := byteOf (m.toList.filter GenState.used).length
      let program : List Byte := match s.inFlight with
        | none => [0, 0, 0]
        | some p => [p.snapshot.kind.code, byteOf (p.generation.val + 1),
            byteOf (max 1 ((p.acceptedAt + 48000 - s.clock + 999) / 1000))]
      exec (.storeStatus q []) s =
        .next (answered s .storeStatus q []
          ⟨.ok, states s.map.curves ++ states s.map.trims ++ states s.map.startup ++ states s.map.label ++
            [used s.map.curves, used s.map.trims, used s.map.startup, used s.map.label] ++ program⟩)) ∧
    (∀ v : Vector Byte 16, Executes s .labelSet q v.toList →
      exec (.labelSet q v.toList) s = .next (answered { s with label := v } .labelSet q v.toList ⟨.ok, []⟩)) ∧
    (Executes s .restart q [] →
      (s.inFlight ≠ none → exec (.restart q []) s = .next (answered s .restart q [] ⟨.busy, []⟩)) ∧
      (s.inFlight = none →
        exec (.restart q []) s = .next (answered { s with restarting := true } .restart q [] ⟨.ok, []⟩)))

/-- A reset condition (R122, R123, R107): a program in flight is cut, a frame in transmission is cut off, the restart of an accepted
RESTART does not follow. From it to the reset base every pin carries 0, ATTN is released, and no byte, expiry, GO edge or program
completion does anything. The model's choices: the array shows the cut at once (log 10), POWER stands before PIN (log 12). -/
def Obligations.ResetConditionHoldsThePart : Prop :=
  ∀ (s : State) (c : HoldCause),
    let cause : ResetCause := match c with
      | .power => .power
      | .pin => if s.phase = .held .power then .power else .pin
    let held := { s with
      array := match s.inFlight with
        | none => s.array
        | some p => arrayWith s.array p.generation p.snapshot .bad
      phase := .held cause
      sending := none
      restarting := false }
    exec (.resetCondition c) s = .next held ∧
      (∀ ch, held.delivered ch = 0) ∧ held.attnLow = false ∧ (∀ b, exec (.byteReceived b) held = .next held) ∧
      exec .fadeClockExpiry held = .next held ∧ exec .goFallingEdge held = .next held ∧
      ∀ o, exec (.programCompletion o) held = .next held

/-- The reset base (R126): every volatile item takes its base value (R19, R34, R62, R76, R93, R120, R148, R165), the array and IDENT
stand, the straps give the bit rate (R149), the cause is recorded and the START phase begins. The timers it starts are held as moments of the
clock (log 3). Without a reset condition or a sent RESTART before it, the event is none (log 2). -/
def Obligations.ResetBaseGivesBaseValues : Prop :=
  ∀ (s : State) (r1 r0 : PinLevel),
    (s.isHeld = false → exec (.resetBase r1 r0) s = .next s) ∧
    ∀ cause, s.phase = .held cause →
      exec (.resetBase r1 r0) s = .next {
        channels := Vector.replicate 16
          { level := 0, owner := none, slot := 0, source := .stored, overrideTrim := 0, storedTrim := 0, driveCode := 0 }
        curves := Vector.replicate 7 [⟨0, 0⟩, ⟨1000, 4095⟩]
        profile := .active
        heldFrom := .active
        activeClass := 0
        economyClass := 4
        cues := Vector.replicate 32 none
        active := []
        nextId := 1
        uptime := 0
        fadeDue := s.clock + 10000
        armed := none
        follows := []
        goEdge := none
        array := s.array
        ident := s.ident
        map := { curves := Vector.replicate 4 .blank, trims := Vector.replicate 4 .blank,
                 startup := Vector.replicate 4 .blank, label := Vector.replicate 4 .blank }
        inFlight := none
        label := Vector.replicate 16 0x20
        serial := 0
        reports := []
        overflow := none
        nextReport := 0
        phase := .start
        cause := cause
        restarting := false
        bitRate := match r1, r0 with
          | .low, .low => .r19200
          | .low, .high => .r57600
          | .high, .low => .r115200
          | .high, .high => .r460800
        receiver := .hunt
        interByte := none
        breakDetector := match s.rxd with
          | .high => .idle
          | .low => .timing s.clock
        lastReply := none
        sending := none
        waiting := none
        oe := s.oe
        rxd := s.rxd
        clock := s.clock
        pending := s.pending }

/-- Load completion (R129 to R133): each kind loads its newest GOOD generation or its defaults (`Loads`), IDENT is read, START is
queued as report 0 with the generations and fallback flags, and the part is READY. With no GOOD STARTUP generation that is all.
With one, its bindings, sources, classes and profile are applied, and: with a fade time above 0 the start-up instance fades every
channel from level 0, each OWNED by id 0; with fade time 0 every channel is FREE at its stored level and the instance has completed,
its CUE_DONE being report 1. In READY the event is none (log 2). -/
def Obligations.LoadCompletionEndsStart : Prop :=
  ∀ s : State,
    (s.phase = .ready → exec .loadCompletion s = .next s) ∧
    (s.phase = .start → EngineSound s →
      ∃ (curves : Option (Vector Curve 7)) (trims : Option (Vector Int 16)) (scene : Option Scene) (label : Option (Vector Byte 16))
        (noteC noteT noteS noteL : LoadNote),
        Loads s.array.curves curves noteC ∧ Loads s.array.trims trims noteT ∧ Loads s.array.startup scene noteS ∧
        Loads s.array.label label noteL ∧
        let start : Report := { number := 0, time := s.uptime, body := .start s.cause noteC noteT noteS noteL }
        let ended : Report := { number := 1, time := s.uptime, body := .cueDone 0 none .complete 16 0 0 0 }
        let loaded : State := { s with
          map := { curves := foundIn s.array.curves, trims := foundIn s.array.trims, startup := foundIn s.array.startup,
                   label := foundIn s.array.label }
          serial := s.ident.getD 0
          curves := curves.getD (Vector.replicate 7 [⟨0, 0⟩, ⟨1000, 4095⟩])
          label := label.getD (Vector.replicate 16 0x20)
          reports := [start]
          nextReport := 1
          phase := .ready }
        let trimmed (c : ChannelNo) : Channel := { s.channels[c] with
          storedTrim := match trims with
            | none => 0
            | some t => t[c] }
        exec .loadCompletion s = .next (match scene with
          | none => { loaded with channels := Vector.ofFn fun c => { trimmed c with driveCode := 0 } }
          | some x =>
            let applied : State := { loaded with
              profile := x.profile.toProfile
              activeClass := x.activeClass
              economyClass := x.economyClass }
            let bound (c : ChannelNo) : Channel := { trimmed c with slot := x.channels[c].slot, source := x.channels[c].source }
            if x.fade = 0 then
              { applied with
                channels := Vector.ofFn fun c =>
                  let ch := { bound c with level := x.channels[c].level }
                  { ch with driveCode := applied.codeOf ch }
                reports := [start, ended]
                nextReport := 2 }
            else
              { applied with
                channels := Vector.ofFn fun c => { bound c with owner := some 0, driveCode := 0 }
                active := [{ id := 0, cue := none, source := .startup, follow := none, elapsed := 0,
                             entries := (List.finRange 16).map fun c =>
                               { entry := { channel := c, target := x.channels[c].level, fade := x.fade, delay := 0 }
                                 state := .fading 0 0 } }] }))

/-! ## Reports -/

/-- FETCH (R144, R171): refused by its form; otherwise, up to the maximum, records leave from the head and are returned whole, oldest
first, the OVERFLOW record last. Each record is 14 bytes: kind, number, time, and the body of its kind (R191). -/
def Obligations.FetchRemovesFromTheHead : Prop :=
  (∀ (s : State) (q : Byte), FormRefusals s q .fetch (.fetch q)) ∧
  (∀ (s : State) (q : Byte) (m : Nat), 1 ≤ m → m ≤ 16 → Executes s .fetch q [byteOf m] →
    let records : List (List Byte) := s.reports.map reportBytes ++ (match s.overflow with
      | none => []
      | some o => [overflowBytes o])
    exec (.fetch q [byteOf m]) s =
      .next (answered
        { s with
          reports := s.reports.drop m
          overflow := if s.reports.length < m then none else s.overflow }
        .fetch q [byteOf m] ⟨.ok, byteOf (min m records.length) :: (records.take m).flatten⟩)) ∧
  (∀ (number : Half) (time : Wide),
    let head (kind : Byte) : List Byte :=
      [kind, number.extractLsb' 8 8, number.extractLsb' 0 8, time.extractLsb' 24 8, time.extractLsb' 16 8, time.extractLsb' 8 8,
        time.extractLsb' 0 8]
    let cueField (c : Option CueIdx) : Byte := match c with
      | none => 0
      | some k => byteOf (k.val + 1)
    let bytes (body : ReportBody) : List Byte := reportBytes { number := number, time := time, body := body }
    (∀ (cause : ResetCause) (c t s l : LoadNote), bytes (.start cause c t s l) =
      head 0x01 ++ [cause.code, noteByte c, noteByte t, noteByte s, noteByte l, 0, 0]) ∧
    (∀ (id : Byte) (cue : Option CueIdx) (out : CueOutcome) (d k o x : Nat), bytes (.cueDone id cue out d k o x) =
      head 0x02 ++ [id, cueField cue, out.code, byteOf d, byteOf k, byteOf o, byteOf x]) ∧
    (∀ (id : Byte) (c : CueIdx) (src : StartSource), bytes (.cueStarted id c src) =
      head 0x03 ++ [id, cueField (some c), src.code, 0, 0, 0, 0]) ∧
    (∀ (c : CueIdx) (src : StartSource) (why : Status), bytes (.startRefused c src why) =
      head 0x04 ++ [cueField (some c), src.code, why.code, 0, 0, 0, 0]) ∧
    (∀ (k : RecordKind) (g : GenIdx), bytes (.programDone k g .good) = head 0x05 ++ [k.code, byteOf (g.val + 1), 0x02, 0, 0, 0, 0] ∧
      bytes (.programDone k g .bad) = head 0x05 ++ [k.code, byteOf (g.val + 1), 0x03, 0, 0, 0, 0]) ∧
    ∀ lost : Nat, lost ≤ 65535 → overflowBytes { first := number, lost := lost, time := time } =
      head 0x0F ++ [number.extractLsb' 8 8, number.extractLsb' 0 8, byteOf (lost / 256), byteOf (lost % 256), 0, 0, 0]) ∧
  ∀ n : LoadNote, n.generation ≤ 4 → noteByte n = (if n.fallback then 0x80 else 0x00) ||| byteOf n.generation

/-- A report event (R140, R141, R142): it takes the counter's number, and is appended, creates the OVERFLOW record, or is counted in
it. -/
def Obligations.ReportEvent : Prop :=
  ∀ (s : State) (b : ReportBody),
    (s.overflow = none → s.reports.length < 15 →
      s.report b = { s with
        reports := s.reports ++ [{ number := s.nextReport, time := s.uptime, body := b }]
        nextReport := s.nextReport + 1 }) ∧
    (s.overflow = none → 15 ≤ s.reports.length →
      s.report b = { s with
        overflow := some { first := s.nextReport, lost := 1, time := s.uptime }
        nextReport := s.nextReport + 1 }) ∧
    ∀ o, s.overflow = some o →
      s.report b = { s with
        overflow := some { o with lost := if o.lost < 65535 then o.lost + 1 else 65535 }
        nextReport := s.nextReport + 1 }

/-- The laws of the Report Queue hold after every command that finds them: at most 15 ordinary records, numbered without a gap, and
an OVERFLOW record that counts the numbers lost (R137, R140, R142). -/
def Obligations.QueueSoundIsKept : Prop :=
  ∀ (c : Instr) (s t : State), QueueSound s → exec c s = .next t → QueueSound t

/-- The state right after reset meets every law that the commands keep. Some of its values are the model's (logs 6, 7, 9). -/
def Obligations.LawsHoldAtReset : Prop :=
  CodesCurrent State.reset ∧ RangesHold State.reset ∧ EngineSound State.reset ∧ ArmDefined State.reset ∧
    QueueSound State.reset ∧ StoreSound State.reset ∧ LinkSound State.reset

/-! ## The frame check -/

/-- The frame check (R151): the register starts at 0xFFFF; each covered byte is combined into its high eight bits, and eight shifts
follow, each combined with 0x1021 when the bit shifted out is 1. It covers sequence, kind, length and payload, stands in the frame
high byte first, and differs between any two runs of covered bytes that differ in one byte. The two rows of R151's table. -/
def Obligations.FrameCheckFollowsR151 : Prop :=
  let shifted (r : Half) : Half := if r.getLsbD 15 then (r <<< 1) ^^^ 0x1021 else r <<< 1
  crc [] = 0xFFFF ∧
  (∀ (bytes : List Byte) (b : Byte), crc (bytes ++ [b]) = shifted^[8] (crc bytes ^^^ (b.setWidth 16 <<< 8))) ∧
  (∀ (q k : Byte) (p : List Byte), frameCheck q k p = crc ([q, k, byteOf p.length] ++ p)) ∧
  (∀ f : Frame, frameBytes f = [0xC3, f.seq, f.kind, byteOf f.payload.length] ++ f.payload ++
    [(frameCheck f.seq f.kind f.payload).extractLsb' 8 8, (frameCheck f.seq f.kind f.payload).extractLsb' 0 8]) ∧
  (∀ (before after : List Byte) (b b' : Byte), b ≠ b' → crc (before ++ b :: after) ≠ crc (before ++ b' :: after)) ∧
  crc [0x01, 0x01, 0x00] = 0xC89D ∧ crc [0x31, 0x32, 0x33, 0x34, 0x35, 0x36, 0x37, 0x38, 0x39] = 0x29B1

end Statements
end

