-- ==== Sys2Proof/Laws/State.lean ====
section
/-!
SUPPORT. The small lemmas of the updates of State: for each update and each field that it does not write, the field stands.
The other updates of channels are instances of `mapChannels`, those of the Active List of `mapActive`.
-/
namespace Sys2Proof.Machine

variable (s : State)

/-! ## What each update writes -/

@[simp] theorem State.mapChannels_channels (f : ChannelNo → Channel → Channel) (c : ChannelNo) :
    (s.mapChannels f).channels[c] = f c s.channels[c] := by
  simp [State.mapChannels]

@[simp] theorem State.mapActive_active (f : Instance → Instance) : (s.mapActive f).active = s.active.map f := rfl

@[simp] theorem State.toHunt_receiver : s.toHunt.receiver = .hunt := rfl

@[simp] theorem State.toHunt_interByte : s.toHunt.interByte = none := rfl

@[simp] theorem State.advanceTo_clock (t : Nat) : (s.advanceTo t).clock = max s.clock t := rfl

@[simp] theorem State.receiving_receiver (r : Receiver) : (s.receiving r).receiver = r := rfl

@[simp] theorem State.receiving_interByte (r : Receiver) : (s.receiving r).interByte = some s.clock := rfl

@[simp] theorem State.dropReports_reports (m : Nat) : (s.dropReports m).reports = s.reports.drop m := rfl

@[simp] theorem State.report_nextReport (b : ReportBody) : (s.report b).nextReport = s.nextReport + 1 := by
  unfold State.report; split <;> [skip; split] <;> rfl

/-! ## Updates that are instances of another -/

theorem State.recodeAll_eq_recode : s.recodeAll = s.recode fun _ => true := rfl

theorem State.recode_eq_mapChannels (p : Channel → Bool) :
    s.recode p = s.mapChannels fun _ ch => if p ch then s.recoded ch else ch := rfl

theorem State.writeLevel_eq_mapChannels (c : ChannelNo) (level : Nat) (owner : Option Byte) :
    s.writeLevel c level owner =
      s.mapChannels fun c' ch => if c' = c then s.recoded { ch with level := level, owner := owner } else ch := rfl

theorem State.writeOwner_eq_mapChannels (c : ChannelNo) (owner : Option Byte) :
    s.writeOwner c owner = s.mapChannels fun c' ch => if c' = c then { ch with owner := owner } else ch := rfl

theorem State.mapSelected_eq_mapChannels (mask : Half) (f : Channel → Channel) :
    s.mapSelected mask f = s.mapChannels fun c ch => if selects mask c then f ch else ch := rfl

theorem State.setEntry_eq_mapActive (id : Byte) (c : ChannelNo) (out : EntryState) :
    s.setEntry id c out = s.mapActive fun i => if i.id = id then i.setEntry c out else i := rfl

theorem State.advanceElapsed_eq_mapActive :
    s.advanceElapsed = s.mapActive fun i => { i with elapsed := i.elapsed + 1 } := rfl

/-! ## `mapChannels` leaves every other field -/

@[simp] theorem State.mapChannels_curves (f : ChannelNo → Channel → Channel) : (s.mapChannels f).curves = s.curves := rfl
@[simp] theorem State.mapChannels_profile (f : ChannelNo → Channel → Channel) : (s.mapChannels f).profile = s.profile := rfl
@[simp] theorem State.mapChannels_heldFrom (f : ChannelNo → Channel → Channel) : (s.mapChannels f).heldFrom = s.heldFrom := rfl
@[simp] theorem State.mapChannels_activeClass (f : ChannelNo → Channel → Channel) : (s.mapChannels f).activeClass = s.activeClass := rfl
@[simp] theorem State.mapChannels_economyClass (f : ChannelNo → Channel → Channel) : (s.mapChannels f).economyClass = s.economyClass := rfl
@[simp] theorem State.mapChannels_cues (f : ChannelNo → Channel → Channel) : (s.mapChannels f).cues = s.cues := rfl
@[simp] theorem State.mapChannels_active (f : ChannelNo → Channel → Channel) : (s.mapChannels f).active = s.active := rfl
@[simp] theorem State.mapChannels_nextId (f : ChannelNo → Channel → Channel) : (s.mapChannels f).nextId = s.nextId := rfl
@[simp] theorem State.mapChannels_uptime (f : ChannelNo → Channel → Channel) : (s.mapChannels f).uptime = s.uptime := rfl
@[simp] theorem State.mapChannels_fadeDue (f : ChannelNo → Channel → Channel) : (s.mapChannels f).fadeDue = s.fadeDue := rfl
@[simp] theorem State.mapChannels_armed (f : ChannelNo → Channel → Channel) : (s.mapChannels f).armed = s.armed := rfl
@[simp] theorem State.mapChannels_follows (f : ChannelNo → Channel → Channel) : (s.mapChannels f).follows = s.follows := rfl
@[simp] theorem State.mapChannels_goEdge (f : ChannelNo → Channel → Channel) : (s.mapChannels f).goEdge = s.goEdge := rfl
@[simp] theorem State.mapChannels_array (f : ChannelNo → Channel → Channel) : (s.mapChannels f).array = s.array := rfl
@[simp] theorem State.mapChannels_ident (f : ChannelNo → Channel → Channel) : (s.mapChannels f).ident = s.ident := rfl
@[simp] theorem State.mapChannels_map (f : ChannelNo → Channel → Channel) : (s.mapChannels f).map = s.map := rfl
@[simp] theorem State.mapChannels_inFlight (f : ChannelNo → Channel → Channel) : (s.mapChannels f).inFlight = s.inFlight := rfl
@[simp] theorem State.mapChannels_label (f : ChannelNo → Channel → Channel) : (s.mapChannels f).label = s.label := rfl
@[simp] theorem State.mapChannels_serial (f : ChannelNo → Channel → Channel) : (s.mapChannels f).serial = s.serial := rfl
@[simp] theorem State.mapChannels_reports (f : ChannelNo → Channel → Channel) : (s.mapChannels f).reports = s.reports := rfl
@[simp] theorem State.mapChannels_overflow (f : ChannelNo → Channel → Channel) : (s.mapChannels f).overflow = s.overflow := rfl
@[simp] theorem State.mapChannels_nextReport (f : ChannelNo → Channel → Channel) : (s.mapChannels f).nextReport = s.nextReport := rfl
@[simp] theorem State.mapChannels_phase (f : ChannelNo → Channel → Channel) : (s.mapChannels f).phase = s.phase := rfl
@[simp] theorem State.mapChannels_cause (f : ChannelNo → Channel → Channel) : (s.mapChannels f).cause = s.cause := rfl
@[simp] theorem State.mapChannels_restarting (f : ChannelNo → Channel → Channel) : (s.mapChannels f).restarting = s.restarting := rfl
@[simp] theorem State.mapChannels_bitRate (f : ChannelNo → Channel → Channel) : (s.mapChannels f).bitRate = s.bitRate := rfl
@[simp] theorem State.mapChannels_receiver (f : ChannelNo → Channel → Channel) : (s.mapChannels f).receiver = s.receiver := rfl
@[simp] theorem State.mapChannels_interByte (f : ChannelNo → Channel → Channel) : (s.mapChannels f).interByte = s.interByte := rfl
@[simp] theorem State.mapChannels_breakDetector (f : ChannelNo → Channel → Channel) : (s.mapChannels f).breakDetector = s.breakDetector := rfl
@[simp] theorem State.mapChannels_lastReply (f : ChannelNo → Channel → Channel) : (s.mapChannels f).lastReply = s.lastReply := rfl
@[simp] theorem State.mapChannels_sending (f : ChannelNo → Channel → Channel) : (s.mapChannels f).sending = s.sending := rfl
@[simp] theorem State.mapChannels_waiting (f : ChannelNo → Channel → Channel) : (s.mapChannels f).waiting = s.waiting := rfl
@[simp] theorem State.mapChannels_oe (f : ChannelNo → Channel → Channel) : (s.mapChannels f).oe = s.oe := rfl
@[simp] theorem State.mapChannels_rxd (f : ChannelNo → Channel → Channel) : (s.mapChannels f).rxd = s.rxd := rfl
@[simp] theorem State.mapChannels_clock (f : ChannelNo → Channel → Channel) : (s.mapChannels f).clock = s.clock := rfl
@[simp] theorem State.mapChannels_pending (f : ChannelNo → Channel → Channel) : (s.mapChannels f).pending = s.pending := rfl

/-! ## `mapActive` leaves every other field -/

@[simp] theorem State.mapActive_channels (f : Instance → Instance) : (s.mapActive f).channels = s.channels := rfl
@[simp] theorem State.mapActive_curves (f : Instance → Instance) : (s.mapActive f).curves = s.curves := rfl
@[simp] theorem State.mapActive_profile (f : Instance → Instance) : (s.mapActive f).profile = s.profile := rfl
@[simp] theorem State.mapActive_heldFrom (f : Instance → Instance) : (s.mapActive f).heldFrom = s.heldFrom := rfl
@[simp] theorem State.mapActive_activeClass (f : Instance → Instance) : (s.mapActive f).activeClass = s.activeClass := rfl
@[simp] theorem State.mapActive_economyClass (f : Instance → Instance) : (s.mapActive f).economyClass = s.economyClass := rfl
@[simp] theorem State.mapActive_cues (f : Instance → Instance) : (s.mapActive f).cues = s.cues := rfl
@[simp] theorem State.mapActive_nextId (f : Instance → Instance) : (s.mapActive f).nextId = s.nextId := rfl
@[simp] theorem State.mapActive_uptime (f : Instance → Instance) : (s.mapActive f).uptime = s.uptime := rfl
@[simp] theorem State.mapActive_fadeDue (f : Instance → Instance) : (s.mapActive f).fadeDue = s.fadeDue := rfl
@[simp] theorem State.mapActive_armed (f : Instance → Instance) : (s.mapActive f).armed = s.armed := rfl
@[simp] theorem State.mapActive_follows (f : Instance → Instance) : (s.mapActive f).follows = s.follows := rfl
@[simp] theorem State.mapActive_goEdge (f : Instance → Instance) : (s.mapActive f).goEdge = s.goEdge := rfl
@[simp] theorem State.mapActive_array (f : Instance → Instance) : (s.mapActive f).array = s.array := rfl
@[simp] theorem State.mapActive_ident (f : Instance → Instance) : (s.mapActive f).ident = s.ident := rfl
@[simp] theorem State.mapActive_map (f : Instance → Instance) : (s.mapActive f).map = s.map := rfl
@[simp] theorem State.mapActive_inFlight (f : Instance → Instance) : (s.mapActive f).inFlight = s.inFlight := rfl
@[simp] theorem State.mapActive_label (f : Instance → Instance) : (s.mapActive f).label = s.label := rfl
@[simp] theorem State.mapActive_serial (f : Instance → Instance) : (s.mapActive f).serial = s.serial := rfl
@[simp] theorem State.mapActive_reports (f : Instance → Instance) : (s.mapActive f).reports = s.reports := rfl
@[simp] theorem State.mapActive_overflow (f : Instance → Instance) : (s.mapActive f).overflow = s.overflow := rfl
@[simp] theorem State.mapActive_nextReport (f : Instance → Instance) : (s.mapActive f).nextReport = s.nextReport := rfl
@[simp] theorem State.mapActive_phase (f : Instance → Instance) : (s.mapActive f).phase = s.phase := rfl
@[simp] theorem State.mapActive_cause (f : Instance → Instance) : (s.mapActive f).cause = s.cause := rfl
@[simp] theorem State.mapActive_restarting (f : Instance → Instance) : (s.mapActive f).restarting = s.restarting := rfl
@[simp] theorem State.mapActive_bitRate (f : Instance → Instance) : (s.mapActive f).bitRate = s.bitRate := rfl
@[simp] theorem State.mapActive_receiver (f : Instance → Instance) : (s.mapActive f).receiver = s.receiver := rfl
@[simp] theorem State.mapActive_interByte (f : Instance → Instance) : (s.mapActive f).interByte = s.interByte := rfl
@[simp] theorem State.mapActive_breakDetector (f : Instance → Instance) : (s.mapActive f).breakDetector = s.breakDetector := rfl
@[simp] theorem State.mapActive_lastReply (f : Instance → Instance) : (s.mapActive f).lastReply = s.lastReply := rfl
@[simp] theorem State.mapActive_sending (f : Instance → Instance) : (s.mapActive f).sending = s.sending := rfl
@[simp] theorem State.mapActive_waiting (f : Instance → Instance) : (s.mapActive f).waiting = s.waiting := rfl
@[simp] theorem State.mapActive_oe (f : Instance → Instance) : (s.mapActive f).oe = s.oe := rfl
@[simp] theorem State.mapActive_rxd (f : Instance → Instance) : (s.mapActive f).rxd = s.rxd := rfl
@[simp] theorem State.mapActive_clock (f : Instance → Instance) : (s.mapActive f).clock = s.clock := rfl
@[simp] theorem State.mapActive_pending (f : Instance → Instance) : (s.mapActive f).pending = s.pending := rfl

/-! ## `toHunt` leaves every other field -/

@[simp] theorem State.toHunt_channels : s.toHunt.channels = s.channels := rfl
@[simp] theorem State.toHunt_curves : s.toHunt.curves = s.curves := rfl
@[simp] theorem State.toHunt_profile : s.toHunt.profile = s.profile := rfl
@[simp] theorem State.toHunt_heldFrom : s.toHunt.heldFrom = s.heldFrom := rfl
@[simp] theorem State.toHunt_activeClass : s.toHunt.activeClass = s.activeClass := rfl
@[simp] theorem State.toHunt_economyClass : s.toHunt.economyClass = s.economyClass := rfl
@[simp] theorem State.toHunt_cues : s.toHunt.cues = s.cues := rfl
@[simp] theorem State.toHunt_active : s.toHunt.active = s.active := rfl
@[simp] theorem State.toHunt_nextId : s.toHunt.nextId = s.nextId := rfl
@[simp] theorem State.toHunt_uptime : s.toHunt.uptime = s.uptime := rfl
@[simp] theorem State.toHunt_fadeDue : s.toHunt.fadeDue = s.fadeDue := rfl
@[simp] theorem State.toHunt_armed : s.toHunt.armed = s.armed := rfl
@[simp] theorem State.toHunt_follows : s.toHunt.follows = s.follows := rfl
@[simp] theorem State.toHunt_goEdge : s.toHunt.goEdge = s.goEdge := rfl
@[simp] theorem State.toHunt_array : s.toHunt.array = s.array := rfl
@[simp] theorem State.toHunt_ident : s.toHunt.ident = s.ident := rfl
@[simp] theorem State.toHunt_map : s.toHunt.map = s.map := rfl
@[simp] theorem State.toHunt_inFlight : s.toHunt.inFlight = s.inFlight := rfl
@[simp] theorem State.toHunt_label : s.toHunt.label = s.label := rfl
@[simp] theorem State.toHunt_serial : s.toHunt.serial = s.serial := rfl
@[simp] theorem State.toHunt_reports : s.toHunt.reports = s.reports := rfl
@[simp] theorem State.toHunt_overflow : s.toHunt.overflow = s.overflow := rfl
@[simp] theorem State.toHunt_nextReport : s.toHunt.nextReport = s.nextReport := rfl
@[simp] theorem State.toHunt_phase : s.toHunt.phase = s.phase := rfl
@[simp] theorem State.toHunt_cause : s.toHunt.cause = s.cause := rfl
@[simp] theorem State.toHunt_restarting : s.toHunt.restarting = s.restarting := rfl
@[simp] theorem State.toHunt_bitRate : s.toHunt.bitRate = s.bitRate := rfl
@[simp] theorem State.toHunt_breakDetector : s.toHunt.breakDetector = s.breakDetector := rfl
@[simp] theorem State.toHunt_lastReply : s.toHunt.lastReply = s.lastReply := rfl
@[simp] theorem State.toHunt_sending : s.toHunt.sending = s.sending := rfl
@[simp] theorem State.toHunt_waiting : s.toHunt.waiting = s.waiting := rfl
@[simp] theorem State.toHunt_oe : s.toHunt.oe = s.oe := rfl
@[simp] theorem State.toHunt_rxd : s.toHunt.rxd = s.rxd := rfl
@[simp] theorem State.toHunt_clock : s.toHunt.clock = s.clock := rfl
@[simp] theorem State.toHunt_pending : s.toHunt.pending = s.pending := rfl

/-! ## `advanceTo` leaves every other field -/

@[simp] theorem State.advanceTo_channels (t : Nat) : (s.advanceTo t).channels = s.channels := rfl
@[simp] theorem State.advanceTo_curves (t : Nat) : (s.advanceTo t).curves = s.curves := rfl
@[simp] theorem State.advanceTo_profile (t : Nat) : (s.advanceTo t).profile = s.profile := rfl
@[simp] theorem State.advanceTo_heldFrom (t : Nat) : (s.advanceTo t).heldFrom = s.heldFrom := rfl
@[simp] theorem State.advanceTo_activeClass (t : Nat) : (s.advanceTo t).activeClass = s.activeClass := rfl
@[simp] theorem State.advanceTo_economyClass (t : Nat) : (s.advanceTo t).economyClass = s.economyClass := rfl
@[simp] theorem State.advanceTo_cues (t : Nat) : (s.advanceTo t).cues = s.cues := rfl
@[simp] theorem State.advanceTo_active (t : Nat) : (s.advanceTo t).active = s.active := rfl
@[simp] theorem State.advanceTo_nextId (t : Nat) : (s.advanceTo t).nextId = s.nextId := rfl
@[simp] theorem State.advanceTo_uptime (t : Nat) : (s.advanceTo t).uptime = s.uptime := rfl
@[simp] theorem State.advanceTo_fadeDue (t : Nat) : (s.advanceTo t).fadeDue = s.fadeDue := rfl
@[simp] theorem State.advanceTo_armed (t : Nat) : (s.advanceTo t).armed = s.armed := rfl
@[simp] theorem State.advanceTo_follows (t : Nat) : (s.advanceTo t).follows = s.follows := rfl
@[simp] theorem State.advanceTo_goEdge (t : Nat) : (s.advanceTo t).goEdge = s.goEdge := rfl
@[simp] theorem State.advanceTo_array (t : Nat) : (s.advanceTo t).array = s.array := rfl
@[simp] theorem State.advanceTo_ident (t : Nat) : (s.advanceTo t).ident = s.ident := rfl
@[simp] theorem State.advanceTo_map (t : Nat) : (s.advanceTo t).map = s.map := rfl
@[simp] theorem State.advanceTo_inFlight (t : Nat) : (s.advanceTo t).inFlight = s.inFlight := rfl
@[simp] theorem State.advanceTo_label (t : Nat) : (s.advanceTo t).label = s.label := rfl
@[simp] theorem State.advanceTo_serial (t : Nat) : (s.advanceTo t).serial = s.serial := rfl
@[simp] theorem State.advanceTo_reports (t : Nat) : (s.advanceTo t).reports = s.reports := rfl
@[simp] theorem State.advanceTo_overflow (t : Nat) : (s.advanceTo t).overflow = s.overflow := rfl
@[simp] theorem State.advanceTo_nextReport (t : Nat) : (s.advanceTo t).nextReport = s.nextReport := rfl
@[simp] theorem State.advanceTo_phase (t : Nat) : (s.advanceTo t).phase = s.phase := rfl
@[simp] theorem State.advanceTo_cause (t : Nat) : (s.advanceTo t).cause = s.cause := rfl
@[simp] theorem State.advanceTo_restarting (t : Nat) : (s.advanceTo t).restarting = s.restarting := rfl
@[simp] theorem State.advanceTo_bitRate (t : Nat) : (s.advanceTo t).bitRate = s.bitRate := rfl
@[simp] theorem State.advanceTo_receiver (t : Nat) : (s.advanceTo t).receiver = s.receiver := rfl
@[simp] theorem State.advanceTo_interByte (t : Nat) : (s.advanceTo t).interByte = s.interByte := rfl
@[simp] theorem State.advanceTo_breakDetector (t : Nat) : (s.advanceTo t).breakDetector = s.breakDetector := rfl
@[simp] theorem State.advanceTo_lastReply (t : Nat) : (s.advanceTo t).lastReply = s.lastReply := rfl
@[simp] theorem State.advanceTo_sending (t : Nat) : (s.advanceTo t).sending = s.sending := rfl
@[simp] theorem State.advanceTo_waiting (t : Nat) : (s.advanceTo t).waiting = s.waiting := rfl
@[simp] theorem State.advanceTo_oe (t : Nat) : (s.advanceTo t).oe = s.oe := rfl
@[simp] theorem State.advanceTo_rxd (t : Nat) : (s.advanceTo t).rxd = s.rxd := rfl
@[simp] theorem State.advanceTo_pending (t : Nat) : (s.advanceTo t).pending = s.pending := rfl

/-! ## `receiving` leaves every other field -/

@[simp] theorem State.receiving_channels (r : Receiver) : (s.receiving r).channels = s.channels := rfl
@[simp] theorem State.receiving_curves (r : Receiver) : (s.receiving r).curves = s.curves := rfl
@[simp] theorem State.receiving_profile (r : Receiver) : (s.receiving r).profile = s.profile := rfl
@[simp] theorem State.receiving_heldFrom (r : Receiver) : (s.receiving r).heldFrom = s.heldFrom := rfl
@[simp] theorem State.receiving_activeClass (r : Receiver) : (s.receiving r).activeClass = s.activeClass := rfl
@[simp] theorem State.receiving_economyClass (r : Receiver) : (s.receiving r).economyClass = s.economyClass := rfl
@[simp] theorem State.receiving_cues (r : Receiver) : (s.receiving r).cues = s.cues := rfl
@[simp] theorem State.receiving_active (r : Receiver) : (s.receiving r).active = s.active := rfl
@[simp] theorem State.receiving_nextId (r : Receiver) : (s.receiving r).nextId = s.nextId := rfl
@[simp] theorem State.receiving_uptime (r : Receiver) : (s.receiving r).uptime = s.uptime := rfl
@[simp] theorem State.receiving_fadeDue (r : Receiver) : (s.receiving r).fadeDue = s.fadeDue := rfl
@[simp] theorem State.receiving_armed (r : Receiver) : (s.receiving r).armed = s.armed := rfl
@[simp] theorem State.receiving_follows (r : Receiver) : (s.receiving r).follows = s.follows := rfl
@[simp] theorem State.receiving_goEdge (r : Receiver) : (s.receiving r).goEdge = s.goEdge := rfl
@[simp] theorem State.receiving_array (r : Receiver) : (s.receiving r).array = s.array := rfl
@[simp] theorem State.receiving_ident (r : Receiver) : (s.receiving r).ident = s.ident := rfl
@[simp] theorem State.receiving_map (r : Receiver) : (s.receiving r).map = s.map := rfl
@[simp] theorem State.receiving_inFlight (r : Receiver) : (s.receiving r).inFlight = s.inFlight := rfl
@[simp] theorem State.receiving_label (r : Receiver) : (s.receiving r).label = s.label := rfl
@[simp] theorem State.receiving_serial (r : Receiver) : (s.receiving r).serial = s.serial := rfl
@[simp] theorem State.receiving_reports (r : Receiver) : (s.receiving r).reports = s.reports := rfl
@[simp] theorem State.receiving_overflow (r : Receiver) : (s.receiving r).overflow = s.overflow := rfl
@[simp] theorem State.receiving_nextReport (r : Receiver) : (s.receiving r).nextReport = s.nextReport := rfl
@[simp] theorem State.receiving_phase (r : Receiver) : (s.receiving r).phase = s.phase := rfl
@[simp] theorem State.receiving_cause (r : Receiver) : (s.receiving r).cause = s.cause := rfl
@[simp] theorem State.receiving_restarting (r : Receiver) : (s.receiving r).restarting = s.restarting := rfl
@[simp] theorem State.receiving_bitRate (r : Receiver) : (s.receiving r).bitRate = s.bitRate := rfl
@[simp] theorem State.receiving_breakDetector (r : Receiver) : (s.receiving r).breakDetector = s.breakDetector := rfl
@[simp] theorem State.receiving_lastReply (r : Receiver) : (s.receiving r).lastReply = s.lastReply := rfl
@[simp] theorem State.receiving_sending (r : Receiver) : (s.receiving r).sending = s.sending := rfl
@[simp] theorem State.receiving_waiting (r : Receiver) : (s.receiving r).waiting = s.waiting := rfl
@[simp] theorem State.receiving_oe (r : Receiver) : (s.receiving r).oe = s.oe := rfl
@[simp] theorem State.receiving_rxd (r : Receiver) : (s.receiving r).rxd = s.rxd := rfl
@[simp] theorem State.receiving_clock (r : Receiver) : (s.receiving r).clock = s.clock := rfl
@[simp] theorem State.receiving_pending (r : Receiver) : (s.receiving r).pending = s.pending := rfl

/-! ## `dropReports` leaves every other field -/

@[simp] theorem State.dropReports_channels (m : Nat) : (s.dropReports m).channels = s.channels := rfl
@[simp] theorem State.dropReports_curves (m : Nat) : (s.dropReports m).curves = s.curves := rfl
@[simp] theorem State.dropReports_profile (m : Nat) : (s.dropReports m).profile = s.profile := rfl
@[simp] theorem State.dropReports_heldFrom (m : Nat) : (s.dropReports m).heldFrom = s.heldFrom := rfl
@[simp] theorem State.dropReports_activeClass (m : Nat) : (s.dropReports m).activeClass = s.activeClass := rfl
@[simp] theorem State.dropReports_economyClass (m : Nat) : (s.dropReports m).economyClass = s.economyClass := rfl
@[simp] theorem State.dropReports_cues (m : Nat) : (s.dropReports m).cues = s.cues := rfl
@[simp] theorem State.dropReports_active (m : Nat) : (s.dropReports m).active = s.active := rfl
@[simp] theorem State.dropReports_nextId (m : Nat) : (s.dropReports m).nextId = s.nextId := rfl
@[simp] theorem State.dropReports_uptime (m : Nat) : (s.dropReports m).uptime = s.uptime := rfl
@[simp] theorem State.dropReports_fadeDue (m : Nat) : (s.dropReports m).fadeDue = s.fadeDue := rfl
@[simp] theorem State.dropReports_armed (m : Nat) : (s.dropReports m).armed = s.armed := rfl
@[simp] theorem State.dropReports_follows (m : Nat) : (s.dropReports m).follows = s.follows := rfl
@[simp] theorem State.dropReports_goEdge (m : Nat) : (s.dropReports m).goEdge = s.goEdge := rfl
@[simp] theorem State.dropReports_array (m : Nat) : (s.dropReports m).array = s.array := rfl
@[simp] theorem State.dropReports_ident (m : Nat) : (s.dropReports m).ident = s.ident := rfl
@[simp] theorem State.dropReports_map (m : Nat) : (s.dropReports m).map = s.map := rfl
@[simp] theorem State.dropReports_inFlight (m : Nat) : (s.dropReports m).inFlight = s.inFlight := rfl
@[simp] theorem State.dropReports_label (m : Nat) : (s.dropReports m).label = s.label := rfl
@[simp] theorem State.dropReports_serial (m : Nat) : (s.dropReports m).serial = s.serial := rfl
@[simp] theorem State.dropReports_nextReport (m : Nat) : (s.dropReports m).nextReport = s.nextReport := rfl
@[simp] theorem State.dropReports_phase (m : Nat) : (s.dropReports m).phase = s.phase := rfl
@[simp] theorem State.dropReports_cause (m : Nat) : (s.dropReports m).cause = s.cause := rfl
@[simp] theorem State.dropReports_restarting (m : Nat) : (s.dropReports m).restarting = s.restarting := rfl
@[simp] theorem State.dropReports_bitRate (m : Nat) : (s.dropReports m).bitRate = s.bitRate := rfl
@[simp] theorem State.dropReports_receiver (m : Nat) : (s.dropReports m).receiver = s.receiver := rfl
@[simp] theorem State.dropReports_interByte (m : Nat) : (s.dropReports m).interByte = s.interByte := rfl
@[simp] theorem State.dropReports_breakDetector (m : Nat) : (s.dropReports m).breakDetector = s.breakDetector := rfl
@[simp] theorem State.dropReports_lastReply (m : Nat) : (s.dropReports m).lastReply = s.lastReply := rfl
@[simp] theorem State.dropReports_sending (m : Nat) : (s.dropReports m).sending = s.sending := rfl
@[simp] theorem State.dropReports_waiting (m : Nat) : (s.dropReports m).waiting = s.waiting := rfl
@[simp] theorem State.dropReports_oe (m : Nat) : (s.dropReports m).oe = s.oe := rfl
@[simp] theorem State.dropReports_rxd (m : Nat) : (s.dropReports m).rxd = s.rxd := rfl
@[simp] theorem State.dropReports_clock (m : Nat) : (s.dropReports m).clock = s.clock := rfl
@[simp] theorem State.dropReports_pending (m : Nat) : (s.dropReports m).pending = s.pending := rfl

/-! ## `report` leaves every other field -/

@[simp] theorem State.report_channels (b : ReportBody) : (s.report b).channels = s.channels := by
  unfold State.report; split <;> [skip; split] <;> rfl
@[simp] theorem State.report_curves (b : ReportBody) : (s.report b).curves = s.curves := by
  unfold State.report; split <;> [skip; split] <;> rfl
@[simp] theorem State.report_profile (b : ReportBody) : (s.report b).profile = s.profile := by
  unfold State.report; split <;> [skip; split] <;> rfl
@[simp] theorem State.report_heldFrom (b : ReportBody) : (s.report b).heldFrom = s.heldFrom := by
  unfold State.report; split <;> [skip; split] <;> rfl
@[simp] theorem State.report_activeClass (b : ReportBody) : (s.report b).activeClass = s.activeClass := by
  unfold State.report; split <;> [skip; split] <;> rfl
@[simp] theorem State.report_economyClass (b : ReportBody) : (s.report b).economyClass = s.economyClass := by
  unfold State.report; split <;> [skip; split] <;> rfl
@[simp] theorem State.report_cues (b : ReportBody) : (s.report b).cues = s.cues := by
  unfold State.report; split <;> [skip; split] <;> rfl
@[simp] theorem State.report_active (b : ReportBody) : (s.report b).active = s.active := by
  unfold State.report; split <;> [skip; split] <;> rfl
@[simp] theorem State.report_nextId (b : ReportBody) : (s.report b).nextId = s.nextId := by
  unfold State.report; split <;> [skip; split] <;> rfl
@[simp] theorem State.report_uptime (b : ReportBody) : (s.report b).uptime = s.uptime := by
  unfold State.report; split <;> [skip; split] <;> rfl
@[simp] theorem State.report_fadeDue (b : ReportBody) : (s.report b).fadeDue = s.fadeDue := by
  unfold State.report; split <;> [skip; split] <;> rfl
@[simp] theorem State.report_armed (b : ReportBody) : (s.report b).armed = s.armed := by
  unfold State.report; split <;> [skip; split] <;> rfl
@[simp] theorem State.report_follows (b : ReportBody) : (s.report b).follows = s.follows := by
  unfold State.report; split <;> [skip; split] <;> rfl
@[simp] theorem State.report_goEdge (b : ReportBody) : (s.report b).goEdge = s.goEdge := by
  unfold State.report; split <;> [skip; split] <;> rfl
@[simp] theorem State.report_array (b : ReportBody) : (s.report b).array = s.array := by
  unfold State.report; split <;> [skip; split] <;> rfl
@[simp] theorem State.report_ident (b : ReportBody) : (s.report b).ident = s.ident := by
  unfold State.report; split <;> [skip; split] <;> rfl
@[simp] theorem State.report_map (b : ReportBody) : (s.report b).map = s.map := by
  unfold State.report; split <;> [skip; split] <;> rfl
@[simp] theorem State.report_inFlight (b : ReportBody) : (s.report b).inFlight = s.inFlight := by
  unfold State.report; split <;> [skip; split] <;> rfl
@[simp] theorem State.report_label (b : ReportBody) : (s.report b).label = s.label := by
  unfold State.report; split <;> [skip; split] <;> rfl
@[simp] theorem State.report_serial (b : ReportBody) : (s.report b).serial = s.serial := by
  unfold State.report; split <;> [skip; split] <;> rfl
@[simp] theorem State.report_phase (b : ReportBody) : (s.report b).phase = s.phase := by
  unfold State.report; split <;> [skip; split] <;> rfl
@[simp] theorem State.report_cause (b : ReportBody) : (s.report b).cause = s.cause := by
  unfold State.report; split <;> [skip; split] <;> rfl
@[simp] theorem State.report_restarting (b : ReportBody) : (s.report b).restarting = s.restarting := by
  unfold State.report; split <;> [skip; split] <;> rfl
@[simp] theorem State.report_bitRate (b : ReportBody) : (s.report b).bitRate = s.bitRate := by
  unfold State.report; split <;> [skip; split] <;> rfl
@[simp] theorem State.report_receiver (b : ReportBody) : (s.report b).receiver = s.receiver := by
  unfold State.report; split <;> [skip; split] <;> rfl
@[simp] theorem State.report_interByte (b : ReportBody) : (s.report b).interByte = s.interByte := by
  unfold State.report; split <;> [skip; split] <;> rfl
@[simp] theorem State.report_breakDetector (b : ReportBody) : (s.report b).breakDetector = s.breakDetector := by
  unfold State.report; split <;> [skip; split] <;> rfl
@[simp] theorem State.report_lastReply (b : ReportBody) : (s.report b).lastReply = s.lastReply := by
  unfold State.report; split <;> [skip; split] <;> rfl
@[simp] theorem State.report_sending (b : ReportBody) : (s.report b).sending = s.sending := by
  unfold State.report; split <;> [skip; split] <;> rfl
@[simp] theorem State.report_waiting (b : ReportBody) : (s.report b).waiting = s.waiting := by
  unfold State.report; split <;> [skip; split] <;> rfl
@[simp] theorem State.report_oe (b : ReportBody) : (s.report b).oe = s.oe := by
  unfold State.report; split <;> [skip; split] <;> rfl
@[simp] theorem State.report_rxd (b : ReportBody) : (s.report b).rxd = s.rxd := by
  unfold State.report; split <;> [skip; split] <;> rfl
@[simp] theorem State.report_clock (b : ReportBody) : (s.report b).clock = s.clock := by
  unfold State.report; split <;> [skip; split] <;> rfl
@[simp] theorem State.report_pending (b : ReportBody) : (s.report b).pending = s.pending := by
  unfold State.report; split <;> [skip; split] <;> rfl

/-! ## `offer` leaves every other field -/

@[simp] theorem State.offer_channels (f : Frame) : (s.offer f).channels = s.channels := by unfold State.offer; split <;> rfl
@[simp] theorem State.offer_curves (f : Frame) : (s.offer f).curves = s.curves := by unfold State.offer; split <;> rfl
@[simp] theorem State.offer_profile (f : Frame) : (s.offer f).profile = s.profile := by unfold State.offer; split <;> rfl
@[simp] theorem State.offer_heldFrom (f : Frame) : (s.offer f).heldFrom = s.heldFrom := by unfold State.offer; split <;> rfl
@[simp] theorem State.offer_activeClass (f : Frame) : (s.offer f).activeClass = s.activeClass := by
  unfold State.offer; split <;> rfl
@[simp] theorem State.offer_economyClass (f : Frame) : (s.offer f).economyClass = s.economyClass := by
  unfold State.offer; split <;> rfl
@[simp] theorem State.offer_cues (f : Frame) : (s.offer f).cues = s.cues := by unfold State.offer; split <;> rfl
@[simp] theorem State.offer_active (f : Frame) : (s.offer f).active = s.active := by unfold State.offer; split <;> rfl
@[simp] theorem State.offer_nextId (f : Frame) : (s.offer f).nextId = s.nextId := by unfold State.offer; split <;> rfl
@[simp] theorem State.offer_uptime (f : Frame) : (s.offer f).uptime = s.uptime := by unfold State.offer; split <;> rfl
@[simp] theorem State.offer_fadeDue (f : Frame) : (s.offer f).fadeDue = s.fadeDue := by unfold State.offer; split <;> rfl
@[simp] theorem State.offer_armed (f : Frame) : (s.offer f).armed = s.armed := by unfold State.offer; split <;> rfl
@[simp] theorem State.offer_follows (f : Frame) : (s.offer f).follows = s.follows := by unfold State.offer; split <;> rfl
@[simp] theorem State.offer_goEdge (f : Frame) : (s.offer f).goEdge = s.goEdge := by unfold State.offer; split <;> rfl
@[simp] theorem State.offer_array (f : Frame) : (s.offer f).array = s.array := by unfold State.offer; split <;> rfl
@[simp] theorem State.offer_ident (f : Frame) : (s.offer f).ident = s.ident := by unfold State.offer; split <;> rfl
@[simp] theorem State.offer_map (f : Frame) : (s.offer f).map = s.map := by unfold State.offer; split <;> rfl
@[simp] theorem State.offer_inFlight (f : Frame) : (s.offer f).inFlight = s.inFlight := by unfold State.offer; split <;> rfl
@[simp] theorem State.offer_label (f : Frame) : (s.offer f).label = s.label := by unfold State.offer; split <;> rfl
@[simp] theorem State.offer_serial (f : Frame) : (s.offer f).serial = s.serial := by unfold State.offer; split <;> rfl
@[simp] theorem State.offer_reports (f : Frame) : (s.offer f).reports = s.reports := by unfold State.offer; split <;> rfl
@[simp] theorem State.offer_overflow (f : Frame) : (s.offer f).overflow = s.overflow := by unfold State.offer; split <;> rfl
@[simp] theorem State.offer_nextReport (f : Frame) : (s.offer f).nextReport = s.nextReport := by
  unfold State.offer; split <;> rfl
@[simp] theorem State.offer_phase (f : Frame) : (s.offer f).phase = s.phase := by unfold State.offer; split <;> rfl
@[simp] theorem State.offer_cause (f : Frame) : (s.offer f).cause = s.cause := by unfold State.offer; split <;> rfl
@[simp] theorem State.offer_restarting (f : Frame) : (s.offer f).restarting = s.restarting := by
  unfold State.offer; split <;> rfl
@[simp] theorem State.offer_bitRate (f : Frame) : (s.offer f).bitRate = s.bitRate := by unfold State.offer; split <;> rfl
@[simp] theorem State.offer_receiver (f : Frame) : (s.offer f).receiver = s.receiver := by unfold State.offer; split <;> rfl
@[simp] theorem State.offer_interByte (f : Frame) : (s.offer f).interByte = s.interByte := by
  unfold State.offer; split <;> rfl
@[simp] theorem State.offer_breakDetector (f : Frame) : (s.offer f).breakDetector = s.breakDetector := by
  unfold State.offer; split <;> rfl
@[simp] theorem State.offer_lastReply (f : Frame) : (s.offer f).lastReply = s.lastReply := by
  unfold State.offer; split <;> rfl
@[simp] theorem State.offer_oe (f : Frame) : (s.offer f).oe = s.oe := by unfold State.offer; split <;> rfl
@[simp] theorem State.offer_rxd (f : Frame) : (s.offer f).rxd = s.rxd := by unfold State.offer; split <;> rfl
@[simp] theorem State.offer_clock (f : Frame) : (s.offer f).clock = s.clock := by unfold State.offer; split <;> rfl
@[simp] theorem State.offer_pending (f : Frame) : (s.offer f).pending = s.pending := by unfold State.offer; split <;> rfl

end Sys2Proof.Machine
end

