-- ==== Sys2Proof/Laws/Aside.lean ====
section
/-!
SUPPORT. What the blocks behind the Link Port do not read: the link's own state, the pins and the queue of commands stand ASIDE.
Every shared operation of the channels, the Cue Engine, the Report Queue and the store acts the same whatever stands aside, and
leaves it as it was. One lemma for each operation says both: `op_setAside`; `State.aside_eq` draws the second from the first.
-/
namespace Sys2Proof.Machine

/-- The fields that stand aside. -/
structure Aside where
  receiver : Receiver
  interByte : Option Nat
  breakDetector : BreakDetector
  lastReply : Option LastReply
  sending : Option Sending
  waiting : Option Frame
  oe : PinLevel
  rxd : PinLevel
  pending : List Instr

/-- What stands aside in a state. -/
def State.aside (s : State) : Aside :=
  { receiver := s.receiver, interByte := s.interByte, breakDetector := s.breakDetector, lastReply := s.lastReply,
    sending := s.sending, waiting := s.waiting, oe := s.oe, rxd := s.rxd, pending := s.pending }

/-- The state with something else aside. -/
def State.setAside (s : State) (a : Aside) : State :=
  { s with receiver := a.receiver, interByte := a.interByte, breakDetector := a.breakDetector, lastReply := a.lastReply,
           sending := a.sending, waiting := a.waiting, oe := a.oe, rxd := a.rxd, pending := a.pending }

variable (s : State) (a : Aside)

theorem State.setAside_aside : s.setAside s.aside = s := rfl

@[simp] theorem State.aside_setAside : (s.setAside a).aside = a := rfl

@[simp] theorem State.setAside_setAside (b : Aside) : (s.setAside a).setAside b = s.setAside b := rfl

/-- An operation that acts the same whatever stands aside leaves it as it was. -/
theorem State.aside_eq {f : State → State} (h : ∀ s a, f (s.setAside a) = (f s).setAside a) (s : State) :
    (f s).aside = s.aside := by
  have := congrArg State.aside (h s s.aside)
  simpa [State.setAside_aside] using this

/-- The receiver's return to HUNT changes what stands aside alone. -/
theorem State.toHunt_eq_setAside : s.toHunt = s.setAside { s.aside with receiver := .hunt, interByte := none } := rfl

/-- The level of OE is aside. -/
theorem State.withOe_eq_setAside (l : PinLevel) : { s with oe := l } = s.setAside { s.aside with oe := l } := rfl

/-- The waiting commands are aside. -/
theorem State.withPending_eq_setAside (l : List Instr) :
    { s with pending := l } = s.setAside { s.aside with pending := l } := rfl

theorem State.ite_setAside {p : Prop} [Decidable p] (t : State) :
    (if p then s else t).setAside a = if p then s.setAside a else t.setAside a := by
  split <;> rfl

/-- A fold of an operation that acts the same whatever stands aside does so too. -/
theorem foldl_setAside {α : Type} {f : State → α → State}
    (h : ∀ s x, f (s.setAside a) x = (f s x).setAside a) (l : List α) (s : State) :
    l.foldl f (s.setAside a) = (l.foldl f s).setAside a := by
  induction l generalizing s with
  | nil => rfl
  | cons x l ih => rw [List.foldl_cons, List.foldl_cons, h, ih]

/-! ## Fields and readings that are not aside -/

@[simp] theorem State.setAside_channels : (s.setAside a).channels = s.channels := rfl
@[simp] theorem State.setAside_curves : (s.setAside a).curves = s.curves := rfl
@[simp] theorem State.setAside_profile : (s.setAside a).profile = s.profile := rfl
@[simp] theorem State.setAside_heldFrom : (s.setAside a).heldFrom = s.heldFrom := rfl
@[simp] theorem State.setAside_cues : (s.setAside a).cues = s.cues := rfl
@[simp] theorem State.setAside_active : (s.setAside a).active = s.active := rfl
@[simp] theorem State.setAside_nextId : (s.setAside a).nextId = s.nextId := rfl
@[simp] theorem State.setAside_follows : (s.setAside a).follows = s.follows := rfl
@[simp] theorem State.setAside_armed : (s.setAside a).armed = s.armed := rfl
@[simp] theorem State.setAside_array : (s.setAside a).array = s.array := rfl
@[simp] theorem State.setAside_map : (s.setAside a).map = s.map := rfl
@[simp] theorem State.setAside_inFlight : (s.setAside a).inFlight = s.inFlight := rfl
@[simp] theorem State.setAside_reports : (s.setAside a).reports = s.reports := rfl
@[simp] theorem State.setAside_overflow : (s.setAside a).overflow = s.overflow := rfl
@[simp] theorem State.setAside_nextReport : (s.setAside a).nextReport = s.nextReport := rfl
@[simp] theorem State.setAside_phase : (s.setAside a).phase = s.phase := rfl
@[simp] theorem State.setAside_label : (s.setAside a).label = s.label := rfl
@[simp] theorem State.setAside_clock : (s.setAside a).clock = s.clock := rfl
@[simp] theorem State.setAside_restarting : (s.setAside a).restarting = s.restarting := rfl
@[simp] theorem State.codeOf_setAside : (s.setAside a).codeOf = s.codeOf := rfl
@[simp] theorem State.recoded_setAside : (s.setAside a).recoded = s.recoded := rfl
@[simp] theorem State.curveAt_setAside : (s.setAside a).curveAt = s.curveAt := rfl
@[simp] theorem State.ceilingProfile_setAside : (s.setAside a).ceilingProfile = s.ceilingProfile := rfl
@[simp] theorem State.issueId_setAside : (s.setAside a).issueId = s.issueId := rfl
@[simp] theorem State.startRefusal_setAside (c : CueIdx) : (s.setAside a).startRefusal c = s.startRefusal c := rfl
@[simp] theorem State.loadedScene_setAside : (s.setAside a).loadedScene = s.loadedScene := rfl
@[simp] theorem State.startBody_setAside : (s.setAside a).startBody = s.startBody := rfl

/-! ## The operations over channels and reports -/

theorem State.mapChannels_setAside (f : ChannelNo → Channel → Channel) :
    (s.setAside a).mapChannels f = (s.mapChannels f).setAside a := rfl

theorem State.recode_setAside (p : Channel → Bool) : (s.setAside a).recode p = (s.recode p).setAside a := rfl

theorem State.mapActive_setAside (f : Instance → Instance) : (s.setAside a).mapActive f = (s.mapActive f).setAside a := rfl

theorem State.advanceTo_setAside (t : Nat) : (s.setAside a).advanceTo t = (s.advanceTo t).setAside a := rfl

theorem State.report_setAside (b : ReportBody) : (s.setAside a).report b = (s.report b).setAside a := by
  cases h : s.overflow with
  | some o => simp only [State.report, State.setAside_overflow, h]; rfl
  | none =>
    simp only [State.report, State.setAside_overflow, State.setAside_reports, h]
    rw [State.ite_setAside]; rfl

theorem State.dropReports_setAside (m : Nat) : (s.setAside a).dropReports m = (s.dropReports m).setAside a := rfl

/-! ## The Cue Engine -/

theorem State.startEntry_setAside (id : Byte) (e : CueEntry) :
    (s.setAside a).startEntry id e = (s.startEntry id e).setAside a := by
  have h : (s.setAside a).heldByNewer id e.channel = s.heldByNewer id e.channel := rfl
  simp only [State.startEntry, h, State.ite_setAside]
  rfl

theorem State.startEntries_setAside (id : Byte) (es : List CueEntry) :
    (s.setAside a).startEntries id es = (s.startEntries id es).setAside a :=
  foldl_setAside a (fun s e => s.startEntry_setAside a id e) es s

theorem State.handOff_setAside (c : CueIdx) : (s.setAside a).handOff c = (s.handOff c).setAside a := by
  unfold State.handOff
  split
  · rename_i h; rw [if_pos (show s.follows.length < Config.maxFollows from h)]; rfl
  · rename_i h; rw [if_neg (show ¬ s.follows.length < Config.maxFollows from h), State.report_setAside]

theorem State.complete_setAside (i : Instance) : (s.setAside a).complete i = (s.complete i).setAside a := by
  rcases h : i.sweepOutcome <;> rcases h' : i.follow <;>
    simp only [State.complete, State.report_setAside, State.handOff_setAside, h, h']

theorem State.sweep_setAside : (s.setAside a).sweep = s.sweep.setAside a :=
  foldl_setAside a (fun s i => s.complete_setAside a i) _ s.dropFinished

theorem State.announce_setAside (i : Instance) : (s.setAside a).announce i = (s.announce i).setAside a := by
  unfold State.announce; split <;> [exact s.report_setAside a _; exact s.report_setAside a _; rfl]

theorem State.launch_setAside (i : Instance) : (s.setAside a).launch i = (s.launch i).setAside a := by
  simp only [State.launch, show (s.setAside a).join i = (s.join i).setAside a from rfl, State.announce_setAside,
    State.startEntries_setAside, State.sweep_setAside]

theorem State.startCue_setAside (c : CueIdx) (src : StartSource) (r : CueRecord) :
    (s.setAside a).startCue c src r = (s.startCue c src r).setAside a :=
  s.takeId.launch_setAside a _

theorem State.startReported_setAside (c : CueIdx) (src : StartSource) :
    (s.setAside a).startReported c src = (s.startReported c src).setAside a := by
  simp only [State.startReported, State.startRefusal_setAside, State.setAside_cues]
  cases s.startRefusal c with
  | some why => exact s.report_setAside a _
  | none =>
    cases s.cues[c] with
    | some r => exact s.startCue_setAside a c src r
    | none => rfl

theorem State.startScene_setAside (x : Scene) : (s.setAside a).startScene x = (s.startScene x).setAside a :=
  s.launch_setAside a _

theorem State.stopInstance_setAside (i : Instance) : (s.setAside a).stopInstance i = (s.stopInstance i).setAside a :=
  ((s.releaseFades i).removeInstance i).report_setAside a _

theorem State.stopAll_setAside :
    (s.active.foldl State.stopInstance (s.setAside a)).clearFollows =
      (s.active.foldl State.stopInstance s).clearFollows.setAside a := by
  rw [foldl_setAside a (fun s i => s.stopInstance_setAside a i)]; rfl

theorem State.stepFades_setAside : (s.setAside a).stepFades = s.stepFades.setAside a := rfl

theorem State.advanceElapsed_setAside : (s.setAside a).advanceElapsed = s.advanceElapsed.setAside a := rfl

theorem State.startDueOn_setAside (c : ChannelNo) : (s.setAside a).startDueOn c = (s.startDueOn c).setAside a := by
  simp only [State.startDueOn, State.setAside_active]
  split
  · rfl
  · split
    · rfl
    · rw [State.mapActive_setAside, State.startEntry_setAside]

theorem State.startDue_setAside : (s.setAside a).startDue = s.startDue.setAside a :=
  foldl_setAside a (fun s c => s.startDueOn_setAside a c) _ s

theorem State.serveOne_setAside : (s.setAside a).serveOne = s.serveOne.setAside a := by
  simp only [State.serveOne, State.setAside_follows]
  split
  · rfl
  · exact s.dropFollow.startReported_setAside a _ .follow

theorem State.serve_setAside (n : Nat) : State.serve n (s.setAside a) = (State.serve n s).setAside a := by
  induction n generalizing s with
  | zero => rfl
  | succ n ih => rw [State.serve, State.serve, State.serveOne_setAside, ih]

theorem State.serveAll_setAside : (s.setAside a).serveAll = s.serveAll.setAside a := s.serve_setAside a s.follows.length

theorem State.cueWork_setAside : (s.setAside a).cueWork = s.cueWork.setAside a := by
  simp only [State.cueWork, State.setAside_profile, State.stepFades_setAside, State.advanceElapsed_setAside,
    State.startDue_setAside, State.sweep_setAside, State.ite_setAside]

theorem State.expiry_setAside : (s.setAside a).expiry = s.expiry.setAside a := by
  simp only [State.expiry, show (s.setAside a).tick = s.tick.setAside a from rfl, State.cueWork_setAside,
    State.serveAll_setAside]

/-! ## The Retained Store and the Start-up Loader -/

theorem State.applyCurves_setAside (c : Vector Curve 7) : (s.setAside a).applyCurves c = (s.applyCurves c).setAside a := rfl

theorem State.applyTrims_setAside (t : Vector Int 16) : (s.setAside a).applyTrims t = (s.applyTrims t).setAside a := rfl

theorem State.applyScene_setAside (x : Scene) : (s.setAside a).applyScene x = (s.applyScene x).setAside a := rfl

theorem State.beginProgram_setAside (k : RecordKind) (g : GenIdx) (fade : Nat) (p : RunProfile) :
    (s.setAside a).beginProgram k g fade p = (s.beginProgram k g fade p).setAside a := by
  cases k <;> rfl

theorem State.afterProgram_setAside (p : Program) (o : ReadBack) :
    (s.setAside a).afterProgram p o = (s.afterProgram p o).setAside a := by
  unfold State.afterProgram; split <;> [split <;> rfl; rfl]

theorem State.endProgram_setAside (p : Program) (o : ReadBack) :
    (s.setAside a).endProgram p o = (s.endProgram p o).setAside a := by
  simp only [State.endProgram, show (s.setAside a).settleProgram p o = (s.settleProgram p o).setAside a from rfl,
    State.report_setAside, State.afterProgram_setAside]
  rfl

theorem State.cutProgram_setAside : (s.setAside a).cutProgram = s.cutProgram.setAside a := by
  unfold State.cutProgram; simp only [State.setAside_inFlight]; split <;> rfl

theorem State.loadArray_setAside : (s.setAside a).loadArray = s.loadArray.setAside a := by
  have map : (s.setAside a).readArray = s.readArray.setAside a := rfl
  have taken : ∀ t : State, (t.setAside a).takeLoaded = t.takeLoaded.setAside a := fun _ => rfl
  have trims : ∀ t : State, (t.setAside a).loadedTrims = t.loadedTrims := fun _ => rfl
  have written : ∀ (t : State) v, (t.setAside a).writeTrims v = (t.writeTrims v).setAside a := fun _ _ => rfl
  simp only [State.loadArray, map, taken, trims, written]
  rfl

theorem State.applyLoaded_setAside : (s.setAside a).applyLoaded = s.applyLoaded.setAside a := by
  unfold State.applyLoaded; simp only [State.loadedScene_setAside]; split <;> rfl

theorem State.playLoaded_setAside : (s.setAside a).playLoaded = s.playLoaded.setAside a := by
  unfold State.playLoaded
  simp only [State.loadedScene_setAside]
  split <;> [exact s.startScene_setAside a _; rfl]

theorem State.load_setAside : (s.setAside a).load = s.load.setAside a := by
  simp only [State.load, State.loadArray_setAside, State.applyLoaded_setAside, State.startBody_setAside,
    State.report_setAside, State.playLoaded_setAside]
  rfl

/-! ## The GO line -/

theorem State.fire_setAside (x : Armed) : (s.setAside a).fire x = (s.fire x).setAside a := by
  unfold State.fire
  simp only [State.startRefusal_setAside, State.startReported_setAside]
  split <;> rfl

theorem State.takeEdge_setAside : (s.setAside a).takeEdge = s.takeEdge.setAside a := by
  unfold State.takeEdge
  simp only [State.setAside_armed]
  split <;> [rfl; exact s.markEdge.fire_setAside a _]

end Sys2Proof.Machine
end

