-- ==== Sys2Proof/Laws/Requests.lean ====
section
/-!
SUPPORT. What a request row can do: one lemma for the shared step of the request rows (`requestStep_cases`), one that every request
row is that step with its kind's handler (`exec_request`), and one for the execution of a request (`requestStep_executes`).
-/
namespace Sys2Proof.Machine

/-! ## Handlers and what stands aside -/

/-- A handler acts the same whatever stands aside, the level of OE excepted, which STATUS reads. -/
def ActsAside (run : Handler) : Prop :=
  ∀ (p : List Byte) (s : State) (a : Aside), a.oe = s.oe → run p (s.setAside a) = ((run p s).1.setAside a, (run p s).2)

theorem refuse_setAside (s : State) (a : Aside) (why : Status) :
    refuse (s.setAside a) why = ((refuse s why).1.setAside a, (refuse s why).2) := rfl

theorem accept_setAside (s : State) (a : Aside) (body : List Byte) :
    accept (s.setAside a) body = ((accept s body).1.setAside a, (accept s body).2) := rfl

/-- A handler's two outcomes under a condition. -/
theorem ite_actsAside {c : Prop} [Decidable c] {a : Aside} {x y : State × Reply} :
    ((if c then x else y).1.setAside a, (if c then x else y).2) =
      if c then (x.1.setAside a, x.2) else (y.1.setAside a, y.2) := by
  split <;> rfl

theorem handleHello_actsAside : ActsAside handleHello := fun p s a _ => by
  unfold handleHello; split <;> rfl

theorem handleStatus_actsAside : ActsAside handleStatus := fun p s a h => by
  have e : (s.setAside a).summary = s.summary := by
    simp only [State.summary, State.setAside, h]; rfl
  cases p with
  | nil => simp only [handleStatus, e, accept_setAside]
  | cons => rfl

theorem handleFetch_actsAside : ActsAside handleFetch := fun p s a _ => by
  unfold handleFetch; split <;> [split <;> rfl; rfl]

theorem handleRestart_actsAside : ActsAside handleRestart := fun p s a _ => by
  cases p with
  | nil => simp only [handleRestart, State.setAside_inFlight, ite_actsAside]; rfl
  | cons => rfl

theorem handleSetProfile_actsAside : ActsAside handleSetProfile := fun p s a _ => by
  unfold handleSetProfile
  split
  · split
    · simp only [setProfile, State.setAside_profile, ite_actsAside]; rfl
    · rfl
  · rfl

theorem handleSetCeiling_actsAside : ActsAside handleSetCeiling := fun p s a _ => by
  unfold handleSetCeiling
  split
  · split
    · rename_i r _ _ _; cases r <;> simp only [setCeiling, State.ceilingProfile_setAside, ite_actsAside] <;> rfl
    · rfl
  · rfl

theorem handleCurveWrite_actsAside : ActsAside handleCurveWrite := fun p s a _ => by
  unfold handleCurveWrite
  split
  · split
    · rfl
    · split
      · rfl
      · have e : ∀ q, (s.setAside a).ownedOn q = s.ownedOn q := fun _ => rfl
        simp only [curveWrite, e, ite_actsAside]; rfl
  · rfl

theorem handleCurveRead_actsAside : ActsAside handleCurveRead := fun p s a _ => by
  unfold handleCurveRead; split <;> [split <;> rfl; rfl]

theorem handleBind_actsAside : ActsAside handleBind := fun p s a _ => by
  unfold handleBind
  split
  · split
    · have e : ∀ m, (s.setAside a).ownedIn m = s.ownedIn m := fun _ => rfl
      simp only [bindChannels, e, ite_actsAside]; rfl
    · rfl
  · rfl

theorem handleTrimSet_actsAside : ActsAside handleTrimSet := fun p s a _ => by
  unfold handleTrimSet; split <;> [split <;> rfl; rfl]

theorem handleTrimSource_actsAside : ActsAside handleTrimSource := fun p s a _ => by
  unfold handleTrimSource; split <;> [split <;> rfl; rfl]

theorem handleChannelRead_actsAside : ActsAside handleChannelRead := fun p s a _ => by
  unfold handleChannelRead; split <;> [split <;> rfl; rfl]

/-- SET_LEVEL's channels and entries before its sweep. -/
theorem setLevel_setAside (mask : Half) (level : Nat) (s : State) (a : Aside) :
    setLevel mask level (s.setAside a) = ((setLevel mask level s).1.setAside a, (setLevel mask level s).2) :=
  congrArg (fun t : State => accept t [])
    (((s.mapSelected mask fun ch => s.recoded { ch with level := level, owner := none }).mapActive fun i =>
      i.endFades (fun c => selects mask c) .overridden).sweep_setAside a)

theorem handleSetLevel_actsAside : ActsAside handleSetLevel := fun p s a _ => by
  unfold handleSetLevel; split <;> [(split <;> [exact setLevel_setAside _ _ s a; rfl]); rfl]

theorem handleCueLoad_actsAside : ActsAside handleCueLoad := fun p s a _ => by
  unfold handleCueLoad
  split
  · simp only [ite_actsAside]
    congr 1
    congr 1
    split
    · simp only [cueLoad, ite_actsAside]; rfl
    · rfl
  · rfl

theorem handleCueRead_actsAside : ActsAside handleCueRead := fun p s a _ => by
  unfold handleCueRead
  split
  · split
    · rfl
    · rename_i c _
      simp only [State.setAside_cues]
      cases s.cues[c] <;> rfl
  · rfl

theorem handleCueClear_actsAside : ActsAside handleCueClear := fun p s a _ => by
  unfold handleCueClear
  split
  · split
    · rfl
    · have e : ∀ c, (s.setAside a).isArmed c = s.isArmed c := fun _ => rfl
      simp only [e, ite_actsAside]; rfl
  · rfl

theorem cueGo_setAside (c : CueIdx) (s : State) (a : Aside) :
    cueGo c (s.setAside a) = ((cueGo c s).1.setAside a, (cueGo c s).2) := by
  simp only [cueGo, State.startRefusal_setAside, State.setAside_cues, State.startCue_setAside, State.issueId_setAside]
  cases s.startRefusal c <;> cases s.cues[c] <;> rfl

theorem handleCueGo_actsAside : ActsAside handleCueGo := fun p s a _ => by
  unfold handleCueGo
  split
  · split
    · rfl
    · simp only [State.setAside_profile, cueGo_setAside, ite_actsAside]; rfl
  · rfl

theorem handleCueArm_actsAside : ActsAside handleCueArm := fun p s a _ => by
  unfold handleCueArm
  split
  · split
    · simp only [State.setAside_cues, ite_actsAside]; rfl
    · rfl
  · rfl

theorem handleCueDisarm_actsAside : ActsAside handleCueDisarm := fun p s a _ => by
  unfold handleCueDisarm; split <;> rfl

theorem handleCueStop_actsAside : ActsAside handleCueStop := fun p s a _ => by
  unfold handleCueStop
  split
  · simp only [State.setAside_active]
    split
    · rfl
    · exact congrArg (fun t : State => accept t []) (s.stopInstance_setAside a _)
  · rfl

theorem handleCueStopAll_actsAside : ActsAside handleCueStopAll := fun p s a _ => by
  unfold handleCueStopAll
  split
  · exact congrArg (fun t : State => accept t []) (s.stopAll_setAside a)
  · rfl

theorem handleActiveRead_actsAside : ActsAside handleActiveRead := fun p s a _ => by
  unfold handleActiveRead; split <;> rfl

theorem handleStoreStatus_actsAside : ActsAside handleStoreStatus := fun p s a _ => by
  unfold handleStoreStatus; split <;> rfl

theorem storeProgram_setAside (k : RecordKind) (g : GenIdx) (fade : Nat) (pr : RunProfile) (s : State) (a : Aside) :
    storeProgram k g fade pr (s.setAside a) =
      ((storeProgram k g fade pr s).1.setAside a, (storeProgram k g fade pr s).2) := by
  simp only [storeProgram, State.setAside_inFlight, State.setAside_map, State.beginProgram_setAside, ite_actsAside]; rfl

theorem handleStoreProgram_actsAside : ActsAside handleStoreProgram := fun p s a _ => by
  unfold handleStoreProgram
  split
  · split <;> [rfl; exact storeProgram_setAside _ _ _ _ s a; rfl]
  · split <;> [(split <;> [exact storeProgram_setAside _ _ _ _ s a; rfl]); rfl]
  · rfl

theorem storeLoadCurves_setAside (s : State) (a : Aside) :
    storeLoadCurves (s.setAside a) = ((storeLoadCurves s).1.setAside a, (storeLoadCurves s).2) := by
  have e : ∀ q, (s.setAside a).ownedOn q = s.ownedOn q := fun _ => rfl
  have l : (s.setAside a).loadedCurves = s.loadedCurves := rfl
  simp only [storeLoadCurves, State.setAside_inFlight, e, l, State.applyCurves_setAside, ite_actsAside]; rfl

theorem storeLoadTrims_setAside (s : State) (a : Aside) :
    storeLoadTrims (s.setAside a) = ((storeLoadTrims s).1.setAside a, (storeLoadTrims s).2) := by
  have l : (s.setAside a).loadedTrims = s.loadedTrims := rfl
  simp only [storeLoadTrims, State.setAside_inFlight, l, State.applyTrims_setAside, ite_actsAside]; rfl

theorem storeLoadLabel_setAside (s : State) (a : Aside) :
    storeLoadLabel (s.setAside a) = ((storeLoadLabel s).1.setAside a, (storeLoadLabel s).2) := by
  have l : (s.setAside a).loadedLabel = s.loadedLabel := rfl
  simp only [storeLoadLabel, State.setAside_inFlight, l, ite_actsAside]; rfl

theorem storeLoadStartup_setAside (s : State) (a : Aside) :
    storeLoadStartup (s.setAside a) = ((storeLoadStartup s).1.setAside a, (storeLoadStartup s).2) := by
  simp only [storeLoadStartup, State.setAside_profile, State.setAside_inFlight, State.loadedScene_setAside,
    State.setAside_active, State.startScene_setAside, ite_actsAside]
  cases s.loadedScene with
  | none => simp only [refuse]
  | some x => simp only [ite_actsAside, refuse, acceptLoad, accept, State.setAside_map]

theorem refuseStoreLoad_actsAside : ActsAside refuseStoreLoad := fun p s a _ => by
  unfold refuseStoreLoad; split <;> rfl

theorem handleStoreLoad_actsAside : ActsAside handleStoreLoad := fun p s a h => by
  unfold handleStoreLoad
  split
  · split <;> [exact storeLoadCurves_setAside s a; exact storeLoadTrims_setAside s a; exact storeLoadStartup_setAside s a;
      exact storeLoadLabel_setAside s a; exact refuseStoreLoad_actsAside _ s a h]
  · exact refuseStoreLoad_actsAside _ s a h

theorem handleLabelSet_actsAside : ActsAside handleLabelSet := fun p s a _ => by
  unfold handleLabelSet; split <;> rfl

/-- Every request is decided and carried out the same whatever stands aside, the level of OE excepted. -/
theorem handlerOf_actsAside (k : RequestKind) : ActsAside (handlerOf k) := by
  cases k
  · exact handleHello_actsAside
  · exact handleStatus_actsAside
  · exact handleFetch_actsAside
  · exact handleRestart_actsAside
  · exact handleSetProfile_actsAside
  · exact handleSetCeiling_actsAside
  · exact handleCurveWrite_actsAside
  · exact handleCurveRead_actsAside
  · exact handleBind_actsAside
  · exact handleTrimSet_actsAside
  · exact handleTrimSource_actsAside
  · exact handleChannelRead_actsAside
  · exact handleSetLevel_actsAside
  · exact handleCueLoad_actsAside
  · exact handleCueRead_actsAside
  · exact handleCueClear_actsAside
  · exact handleCueGo_actsAside
  · exact handleCueArm_actsAside
  · exact handleCueDisarm_actsAside
  · exact handleCueStop_actsAside
  · exact handleCueStopAll_actsAside
  · exact handleActiveRead_actsAside
  · exact handleStoreStatus_actsAside
  · exact handleStoreProgram_actsAside
  · exact handleStoreLoad_actsAside
  · exact handleLabelSet_actsAside

/-- A request leaves what stands aside as it was. -/
theorem handlerOf_aside (k : RequestKind) (p : List Byte) (s : State) : (handlerOf k p s).1.aside = s.aside := by
  have h := handlerOf_actsAside k p s s.aside rfl
  rw [State.setAside_aside] at h
  exact congrArg (fun r : State × Reply => r.1.aside) h

/-! ## The shared step of the request rows -/

/-- Everything the shared step can do: the frame is lost, answered NOT_READY, answered from the record, answered OVERRUN, or
executed (R123, R128, R159, R161, R162). -/
theorem requestStep_cases {k : RequestKind} {run : Handler} {q : Byte} {p : List Byte} {s t : State}
    (h : requestStep k run q p s = .next t) :
    p.length ≤ 240 ∧
      ((s.deaf = true ∧ t = s) ∨
       (s.deaf = false ∧ s.phase = .start ∧ t = s.toHunt.offer (rejectFrame q .notReady)) ∨
       (s.deaf = false ∧ s.phase ≠ .start ∧
         ((∃ stored, s.repeatOf q (requestCheck k q p) = some stored ∧ t = s.toHunt.offer stored) ∨
          (s.repeatOf q (requestCheck k q p) = none ∧
            ((s.sending ≠ none ∧ t = s.toHunt.offer (rejectFrame q .overrun)) ∨
             (s.sending = none ∧ t = s.toHunt.execute k run q p)))))) := by
  unfold requestStep at h
  split at h
  · rename_i fits
    refine ⟨fits, ?_⟩
    cases h
    cases hd : s.deaf with
    | true => simp
    | false =>
      by_cases hp : s.phase = .start
      · simp [State.takeRequest, hp]
      · simp only [State.takeRequest, hp, State.admission, Bool.false_eq_true, if_false, false_and, ne_eq, not_false_eq_true,
          true_and, false_or]
        have hr : s.toHunt.repeatOf q (frameCheck q k.code p) = s.repeatOf q (requestCheck k q p) := rfl
        rw [hr]
        cases s.repeatOf q (requestCheck k q p) with
        | some f => simp
        | none =>
          have hs : s.toHunt.sending = s.sending := rfl
          simp only [hs, reduceCtorEq, false_and, true_and]
          cases s.sending <;> simp
  · cases h

/-- A well-formed request row is the shared step with its kind's handler. -/
theorem exec_request {i : Instr} {k : RequestKind} {q : Byte} {p : List Byte} (hi : requestOf i = some (k, q, p))
    (hw : i.wellFormed = true) (s : State) : exec i s = requestStep k (handlerOf k) q p s := by
  cases i with
  | storeLoadNoRecordKind q' p' =>
    obtain ⟨rfl, rfl, rfl⟩ : RequestKind.storeLoad = k ∧ q' = q ∧ p' = p := by simpa [requestOf] using hi
    have named : namesRecordKind p' = false := by
      simpa [Instr.wellFormed] using (Bool.and_eq_true _ _ |>.mp hw).2
    have none_of : ∀ b : Byte, namesRecordKind [b] = false → recordKind? b = none := by decide
    have run : ∀ s : State, refuseStoreLoad p' s = handleStoreLoad p' s := fun s => by
      unfold handleStoreLoad
      split
      · rename_i b; rw [none_of b named]
      · rfl
    have step : requestStep .storeLoad refuseStoreLoad q' p' s = requestStep .storeLoad handleStoreLoad q' p' s := by
      simp only [requestStep, State.takeRequest, State.admission, State.execute, run]
    show execStoreLoadNoRecordKind q' p' s = _
    unfold execStoreLoadNoRecordKind
    split
    · rename_i b; rw [none_of b named]; exact step
    · exact step
  | fadeClockExpiry => simp [requestOf] at hi
  | goFallingEdge => simp [requestOf] at hi
  | programCompletion o => simp [requestOf] at hi
  | loadCompletion => simp [requestOf] at hi
  | resetCondition c => simp [requestOf] at hi
  | resetBase a b => simp [requestOf] at hi
  | oeChange l => simp [requestOf] at hi
  | byteReceived b => simp [requestOf] at hi
  | framingError => simp [requestOf] at hi
  | interByteTimeout => simp [requestOf] at hi
  | transmissionEnd => simp [requestOf] at hi
  | linkReset => simp [requestOf] at hi
  | rxdFalls => simp [requestOf] at hi
  | rxdRises => simp [requestOf] at hi
  | _ =>
    obtain ⟨rfl, rfl, rfl⟩ := (by simpa [requestOf] using hi : _ ∧ _ ∧ _)
    rfl

/-- The execution of a request with no frame in transmission: its handler's effect, and the link as `answered` gives it. -/
theorem State.toHunt_execute {k : RequestKind} {q : Byte} {p : List Byte} {s : State} {run : Handler} (ha : ActsAside run)
    (idle : s.sending = none) : s.toHunt.execute k run q p = answered (run p s).1 k q p (run p s).2 := by
  have h' := ha p s s.aside rfl
  rw [State.setAside_aside] at h'
  have aside : (run p s).1.aside = s.aside := congrArg (fun r : State × Reply => r.1.aside) h'
  have hunt : run p s.toHunt = ((run p s).1.toHunt, (run p s).2) := by
    have h := ha p s { s.aside with receiver := .hunt, interByte := none } rfl
    rw [← State.toHunt_eq_setAside] at h
    rw [h, State.toHunt_eq_setAside, aside]
  have sends : (run p s).1.sending = none := (congrArg Aside.sending aside).trans idle
  simp only [State.execute, hunt]
  simp only [State.answer, State.offer, State.toHunt, sends, answered, requestCheck]

/-- The execution of a request by the shared step. -/
theorem requestStep_executes {k : RequestKind} {q : Byte} {p : List Byte} {s : State} {run : Handler} (ha : ActsAside run)
    (he : Executes s k q p) : requestStep k run q p s = .next (answered (run p s).1 k q p (run p s).2) := by
  obtain ⟨fits, ready, unbroken, idle, fresh⟩ := he
  have deaf : s.deaf = false := by simp [State.deaf, State.isHeld, ready, unbroken]
  have hr : s.toHunt.repeatOf q (frameCheck q k.code p) = none := fresh
  have hs : s.toHunt.sending.isSome = false := by simp [idle]
  simp only [requestStep, show p.length ≤ Config.maxPayload from fits, if_true, deaf, Bool.false_eq_true, if_false,
    State.takeRequest, ready, reduceCtorEq, State.admission, hr, hs, State.toHunt_execute ha idle]

/-- The execution of a well-formed request row. -/
theorem exec_executes {i : Instr} {k : RequestKind} {q : Byte} {p : List Byte} (hi : requestOf i = some (k, q, p))
    (hw : i.wellFormed = true) {s : State} (he : Executes s k q p) :
    exec i s = .next (answered (handlerOf k p s).1 k q p (handlerOf k p s).2) := by
  rw [exec_request hi hw, requestStep_executes (handlerOf_actsAside k) he]

end Sys2Proof.Machine
end

