-- ==== Sys2Proof/Laws/Fields.lean ====
section
/-!
SUPPORT. The fields of requests: each field's reader returns the value whose bytes it is given (R188), and what the conditions read
from a mask or a slot say.
-/
namespace Sys2Proof.Machine

/-- The row of an executed request is well formed. -/
theorem wellFormed_of_executes {i : Instr} {k : RequestKind} {q : Byte} {p : List Byte} {s : State}
    (hi : requestOf i = some (k, q, p)) (he : Executes s k q p) (hk : k ≠ .storeLoad) : i.wellFormed = true := by
  have fits := he.1
  cases i <;> simp_all [requestOf, Instr.wellFormed, payloadFits, Config.maxPayload]

/-- The execution of a request of any kind but STORE_LOAD. -/
theorem exec_of_executes {i : Instr} {k : RequestKind} {q : Byte} {p : List Byte} {s : State} (he : Executes s k q p)
    (hi : requestOf i = some (k, q, p)) (hk : k ≠ .storeLoad) :
    exec i s = .next (answered (handlerOf k p s).1 k q p (handlerOf k p s).2) :=
  exec_executes hi (wellFormed_of_executes hi he hk) he

/-! ## Numbers -/

theorem append_extract (m : Half) : (m.extractLsb' 8 8 ++ m.extractLsb' 0 8 : BitVec 16) = m := by
  ext i hi
  simp only [BitVec.getElem_append, BitVec.getElem_extractLsb']
  split
  · simp; rw [BitVec.getLsbD_eq_getElem]
  · rw [show 8 + (i - 8) = i by omega, BitVec.getLsbD_eq_getElem]

theorem word16_extract (m : Half) : word16 (m.extractLsb' 8 8) (m.extractLsb' 0 8) = m.toNat := by
  have h := m.isLt
  simp only [word16, BitVec.extractLsb'_toNat, Nat.shiftRight_eq_div_pow]
  omega

theorem word16_bytes (n : Nat) (h : n < 65536) : word16 (BitVec.ofNat 8 (n / 256)) (BitVec.ofNat 8 n) = n := by
  simp only [word16, BitVec.toNat_ofNat]
  omega

theorem signed16_bytes (z : Int) (h : TrimInRange z) :
    signed16 ((BitVec.ofInt 16 z).extractLsb' 8 8) ((BitVec.ofInt 16 z).extractLsb' 0 8) = z := by
  rw [signed16, append_extract, BitVec.toInt_ofInt]
  unfold TrimInRange at h
  apply Int.bmod_eq_of_le <;> omega

/-! ## Readers of fields -/

theorem mask?_bytes (m : Half) (h : m ≠ 0) : mask? (m.extractLsb' 8 8) (m.extractLsb' 0 8) = some m := by
  rw [mask?, append_extract, if_neg h]

theorem slot?_byteOf : ∀ k : SlotNo, slot? (byteOf k.val) = some k := by decide

theorem channel?_byteOf : ∀ c : ChannelNo, channel? (byteOf c.val) = some c := by decide

theorem cue?_byteOf : ∀ c : CueIdx, cue? (byteOf (c.val + 1)) = some c := by decide

theorem class?_byteOf : ∀ k : Fin 6, class? (byteOf k.val) = some k := by decide

theorem generation?_byteOf : ∀ g : GenIdx, generation? (byteOf (g.val + 1)) = some g := by decide

theorem follow?_cueByte (f : Option CueIdx) : follow? (cueByte f) = some f := by
  cases f with
  | none => rfl
  | some c => revert c; decide

theorem trimSource?_code (x : TrimSource) : trimSource? x.code = some x := by cases x <;> rfl

theorem profile?_code (p : Profile) : profile? p.code = some p := by cases p <;> rfl

theorem runProfile?_code (p : RunProfile) : runProfile? p.code = some p := by cases p <;> rfl

theorem armMode?_code (m : ArmMode) : armMode? m.code = some m := by cases m <;> rfl

theorem recordKind?_code (k : RecordKind) : recordKind? k.code = some k := by cases k <;> rfl

theorem trim?_bytes (z : Int) (h : TrimInRange z) :
    trim? ((BitVec.ofInt 16 z).extractLsb' 8 8) ((BitVec.ofInt 16 z).extractLsb' 0 8) = some z := by
  rw [trim?, signed16_bytes z h]
  exact if_pos h

theorem level?_bytes (n : Nat) (h : n ≤ 1000) : level? (BitVec.ofNat 8 (n / 256)) (BitVec.ofNat 8 n) = some n := by
  rw [level?, word16_bytes n (by omega), if_pos h]

theorem time?_bytes (n : Nat) (h : n ≤ 60000) : time? (BitVec.ofNat 8 (n / 256)) (BitVec.ofNat 8 n) = some n := by
  rw [time?, word16_bytes n (by omega), if_pos h]

theorem fetchMax?_byteOf (m : Nat) (h1 : 1 ≤ m) (h2 : m ≤ 16) : fetchMax? (byteOf m) = some m := by
  have e : (byteOf m).toNat = m := by simp only [byteOf, BitVec.toNat_ofNat]; omega
  rw [fetchMax?, e, if_pos ⟨h1, h2⟩]

theorem toNat_byteOf (n : Nat) (h : n < 256) : (byteOf n).toNat = n := by
  simp only [byteOf, BitVec.toNat_ofNat]; omega

theorem length_pointBytes (c : Curve) : ((c.map pointBytes).flatten).length = 4 * c.length := by
  induction c with
  | nil => rfl
  | cons p c ih => simp only [List.map_cons, List.flatten_cons, List.length_append, ih, List.length_cons, pointBytes, bytes16]; simp; omega

theorem points_bytes (c : Curve) (h : ∀ p ∈ c, p.input < 65536 ∧ p.output < 65536) : points (c.map pointBytes).flatten = c := by
  induction c with
  | nil => rfl
  | cons p c ih =>
    have hp := h p (by simp)
    simp only [List.map_cons, List.flatten_cons, pointBytes, bytes16, List.cons_append, List.nil_append, points,
      word16_bytes _ hp.1, word16_bytes _ hp.2, List.cons.injEq, true_and]
    exact ih fun q hq => h q (by simp [hq])

theorem length_entryBytes (es : List CueEntry) : ((es.map entryBytes).flatten).length = 7 * es.length := by
  induction es with
  | nil => rfl
  | cons e es ih => simp only [List.map_cons, List.flatten_cons, List.length_append, ih, List.length_cons, entryBytes, bytes16]; simp; omega

theorem entries?_bytes (es : List CueEntry) (h : ∀ e ∈ es, EntryInRange e) : entries? (es.map entryBytes).flatten = some es := by
  induction es with
  | nil => rfl
  | cons e es ih =>
    obtain ⟨h1, h2, h3⟩ := h e (by simp)
    simp only [List.map_cons, List.flatten_cons, entryBytes, bytes16, List.cons_append, List.nil_append, entries?,
      channel?_byteOf, level?_bytes _ h1, time?_bytes _ h2, time?_bytes _ h3, ih fun x hx => h x (by simp [hx])]

theorem distinctChannels_iff (es : List CueEntry) : distinctChannels es = true ↔ (es.map CueEntry.channel).Nodup := by
  induction es with
  | nil => simp [distinctChannels]
  | cons e es ih => simp [distinctChannels, ih]

/-! ## Conditions -/

theorem State.ownedIn_iff (s : State) (mask : Half) :
    s.ownedIn mask = true ↔ ∃ c, selects mask c = true ∧ s.channels[c].owned = true := by
  simp [State.ownedIn]

theorem State.ownedOn_iff (s : State) (p : SlotNo → Bool) :
    s.ownedOn p = true ↔ ∃ c : ChannelNo, s.channels[c].owned = true ∧ p s.channels[c].slot = true := by
  rw [State.ownedOn, List.any_eq_true]
  constructor
  · rintro ⟨x, hx, h⟩
    obtain ⟨i, hi, rfl⟩ := Vector.mem_iff_getElem.1 (Vector.mem_toList_iff.1 hx)
    exact ⟨⟨i, hi⟩, by simpa using h⟩
  · rintro ⟨c, h⟩
    exact ⟨s.channels[c], Vector.mem_toList_iff.2 (Vector.getElem_mem c.2), by simpa using h⟩

/-- The drive code depends on the channel's level, slot and effective trim alone. -/
theorem State.codeOf_congr (s : State) {a b : Channel} (h1 : a.level = b.level) (h2 : a.slot = b.slot)
    (h3 : a.effectiveTrim = b.effectiveTrim) : s.codeOf a = s.codeOf b := by
  simp only [State.codeOf, h1, h2, h3]

end Sys2Proof.Machine
end

