-- ==== Sys2Proof/Laws/Changes.lean ====
section
/-!
SUPPORT. Everything a command can do, said once: `RequestEffect` for an executed request, `Change` for a command. An invariant is
proved by one case for each constructor.
-/
namespace Sys2Proof.Machine

/-- What the execution of a request can make of the state, the link apart, with the conditions under which it does. -/
inductive RequestEffect (s : State) : State → Prop
  /-- A refusal, or a request that reads. -/
  | nothing : RequestEffect s s
  | fetch (m : Nat) : RequestEffect s (s.dropReports m)
  | restart (h : s.inFlight = none) : RequestEffect s { s with restarting := true }
  | setProfile (p : Profile) (h : ¬(p = .hold ∧ s.profile = .standby)) (hp : p ≠ s.profile) :
      RequestEffect s { s with profile := p, heldFrom := s.heldFromAfter p }.recodeAll
  | setCeilingInForce (p : RunProfile) (k : Fin 6) (h : s.ceilingProfile = some p) :
      RequestEffect s (s.writeClass p k).recodeAll
  | setCeilingAside (p : RunProfile) (k : Fin 6) (h : s.ceilingProfile ≠ some p) : RequestEffect s (s.writeClass p k)
  | curveWrite (k : SlotNo) (c : Curve) (hv : validCurve c = true) (hk : k ≠ 0)
      (ho : s.ownedOn (fun k' => decide (k' = k)) = false) : RequestEffect s (s.writeCurve k c)
  | bind (mask : Half) (k : SlotNo) (ho : s.ownedIn mask = false) :
      RequestEffect s (s.mapSelected mask fun ch => s.recoded { ch with slot := k })
  | trimSet (mask : Half) (trim : Int) (h : TrimInRange trim) : RequestEffect s (trimSet mask trim s).1
  | trimSource (mask : Half) (x : TrimSource) : RequestEffect s (setTrimSource mask x s).1
  | setLevel (mask : Half) (level : Nat) (h : level ≤ 1000) : RequestEffect s (setLevel mask level s).1
  | cueLoad (c : CueIdx) (r : CueRecord) (hs : RecordShaped r) (hr : ∀ e ∈ r.entries, EntryInRange e) :
      RequestEffect s { s with cues := s.cues.set c (some r) }
  | cueClear (c : CueIdx) (h : s.isArmed c = false) : RequestEffect s { s with cues := s.cues.set c none }
  | cueGo (c : CueIdx) (r : CueRecord) (h : s.startRefusal c = none) (hr : s.cues[c] = some r) :
      RequestEffect s (s.startCue c .request r)
  | cueArm (c : CueIdx) (m : ArmMode) (h : s.cues[c] ≠ none) : RequestEffect s { s with armed := some ⟨c, m⟩ }
  | cueDisarm : RequestEffect s { s with armed := none }
  | cueStop (i : Instance) (h : i ∈ s.active) : RequestEffect s (s.stopInstance i)
  | cueStopAll : RequestEffect s (s.active.foldl State.stopInstance s).clearFollows
  | storeProgram (k : RecordKind) (g : GenIdx) (fade : Nat) (p : RunProfile) (hf : fade ≤ 60000) (h : s.inFlight = none)
      (hg : s.map.lowestBlank k = some g) : RequestEffect s (s.beginProgram k g fade p)
  | loadCurves (h : s.inFlight = none) (ho : s.ownedOn (fun k => decide (k ≠ 0)) = false) :
      RequestEffect s (s.applyCurves s.loadedCurves)
  | loadTrims (h : s.inFlight = none) : RequestEffect s (s.applyTrims s.loadedTrims)
  | loadLabel (h : s.inFlight = none) : RequestEffect s { s with label := s.loadedLabel }
  | replay (x : Scene) (hp : s.profile.running = true) (h : s.inFlight = none) (hx : s.loadedScene = some x)
      (hi : idHeld s.active 0 = false) (hl : s.active.length < 4) : RequestEffect s (s.startScene x)
  | labelSet (v : Vector Byte 16) : RequestEffect s { s with label := v }

/-- The entries of a payload lie in their ranges, and there is one for each seven bytes (R27). -/
theorem entries?_inRange : ∀ (n : Nat) (p : List Byte) (es : List CueEntry), p.length = 7 * n → entries? p = some es →
    es.length = n ∧ ∀ e ∈ es, EntryInRange e := by
  intro n
  induction n with
  | zero =>
    intro p es hp h
    obtain rfl : p = [] := List.length_eq_zero_iff.1 hp
    obtain rfl : [] = es := by simpa [entries?] using h
    simp
  | succ n ih =>
    intro p es hp h
    match p, hp with
    | c :: t1 :: t0 :: f1 :: f0 :: d1 :: d0 :: rest, hp =>
      simp only [entries?] at h
      split at h
      · rename_i channel target fade delay es' hc ht hf hd he
        obtain rfl := Option.some.inj h
        obtain ⟨hl, hr⟩ := ih rest es' (by simp only [List.length_cons] at hp; omega) he
        refine ⟨by simp [hl], ?_⟩
        intro e he
        rcases List.mem_cons.1 he with rfl | he
        · have ht' : target ≤ 1000 := by
            simp only [level?] at ht; split at ht
            · obtain rfl := Option.some.inj ht; assumption
            · cases ht
          have time {a b : Byte} {x : Nat} (hx : time? a b = some x) : x ≤ 60000 := by
            simp only [time?] at hx; split at hx
            · obtain rfl := Option.some.inj hx; assumption
            · cases hx
          exact ⟨ht', time hf, time hd⟩
        · exact hr e he
      · cases h

theorem trim?_inRange {a b : Byte} {z : Int} (h : trim? a b = some z) : TrimInRange z := by
  simp only [trim?] at h
  split at h
  · obtain rfl := Option.some.inj h; assumption
  · cases h

theorem level?_inRange {a b : Byte} {n : Nat} (h : level? a b = some n) : n ≤ 1000 := by
  simp only [level?] at h
  split at h
  · obtain rfl := Option.some.inj h; assumption
  · cases h

theorem time?_inRange {a b : Byte} {n : Nat} (h : time? a b = some n) : n ≤ 60000 := by
  simp only [time?] at h
  split at h
  · obtain rfl := Option.some.inj h; assumption
  · cases h

/-- STORE_PROGRAM of fields in range. -/
theorem storeProgram_effect (k : RecordKind) (g : GenIdx) (fade : Nat) (p : RunProfile) (s : State) (hf : fade ≤ 60000) :
    RequestEffect s (storeProgram k g fade p s).1 := by
  unfold storeProgram
  split
  · exact .nothing
  · rename_i h1
    split
    · exact .nothing
    · split
      · exact .nothing
      · rename_i h3
        exact .storeProgram k g fade p hf (by simpa using h1) (by simpa using h3)

theorem handleHello_effect (p : List Byte) (s : State) : RequestEffect s (handleHello p s).1 := by
  unfold handleHello; split <;> exact .nothing

theorem handleStatus_effect (p : List Byte) (s : State) : RequestEffect s (handleStatus p s).1 := by
  unfold handleStatus; split <;> exact .nothing

theorem handleFetch_effect (p : List Byte) (s : State) : RequestEffect s (handleFetch p s).1 := by
  unfold handleFetch; split <;> [(split <;> [exact .fetch _; exact .nothing]); exact .nothing]

theorem handleRestart_effect (p : List Byte) (s : State) : RequestEffect s (handleRestart p s).1 := by
  unfold handleRestart
  split
  · split
    · exact .nothing
    · rename_i h; exact .restart (by simpa using h)
  · exact .nothing

theorem handleSetProfile_effect (p : List Byte) (s : State) : RequestEffect s (handleSetProfile p s).1 := by
  unfold handleSetProfile
  split
  · split
    · split
      · exact .nothing
      · rename_i h
        unfold setProfile
        split
        · exact .nothing
        · rename_i h'; exact .setProfile _ h h'
    · exact .nothing
  · exact .nothing

theorem handleSetCeiling_effect (p : List Byte) (s : State) : RequestEffect s (handleSetCeiling p s).1 := by
  unfold handleSetCeiling
  split
  · split
    · unfold setCeiling
      split
      · rename_i h; exact .setCeilingInForce _ _ h
      · rename_i h; exact .setCeilingAside _ _ h
    · exact .nothing
  · exact .nothing

theorem handleCurveWrite_effect (p : List Byte) (s : State) : RequestEffect s (handleCurveWrite p s).1 := by
  unfold handleCurveWrite
  split
  · split
    · exact .nothing
    · split
      · exact .nothing
      · unfold curveWrite
        split
        · exact .nothing
        · rename_i h1
          split
          · exact .nothing
          · rename_i h2
            split
            · exact .nothing
            · rename_i h3; exact .curveWrite _ _ (by simpa using h1) h2 (by simpa using h3)
  · exact .nothing

theorem handleCurveRead_effect (p : List Byte) (s : State) : RequestEffect s (handleCurveRead p s).1 := by
  unfold handleCurveRead; split <;> [(split <;> exact .nothing); exact .nothing]

theorem handleBind_effect (p : List Byte) (s : State) : RequestEffect s (handleBind p s).1 := by
  unfold handleBind
  split
  · split
    · unfold bindChannels
      split
      · exact .nothing
      · rename_i h; exact .bind _ _ (by simpa using h)
    · exact .nothing
  · exact .nothing

theorem handleTrimSet_effect (p : List Byte) (s : State) : RequestEffect s (handleTrimSet p s).1 := by
  unfold handleTrimSet
  split
  · split
    · rename_i h; exact .trimSet _ _ (trim?_inRange h)
    · exact .nothing
  · exact .nothing

theorem handleTrimSource_effect (p : List Byte) (s : State) : RequestEffect s (handleTrimSource p s).1 := by
  unfold handleTrimSource; split <;> [(split <;> [exact .trimSource _ _; exact .nothing]); exact .nothing]

theorem handleChannelRead_effect (p : List Byte) (s : State) : RequestEffect s (handleChannelRead p s).1 := by
  unfold handleChannelRead; split <;> [(split <;> exact .nothing); exact .nothing]

theorem handleSetLevel_effect (p : List Byte) (s : State) : RequestEffect s (handleSetLevel p s).1 := by
  unfold handleSetLevel
  split
  · split
    · rename_i h; exact .setLevel _ _ (level?_inRange h)
    · exact .nothing
  · exact .nothing

theorem handleCueLoad_effect (p : List Byte) (s : State) : RequestEffect s (handleCueLoad p s).1 := by
  unfold handleCueLoad
  split
  · split
    · exact .nothing
    · rename_i hl
      split
      · exact .nothing
      · rename_i hn
        split
        · rename_i es _ _ he
          unfold cueLoad
          split
          · exact .nothing
          · rename_i hd
            obtain ⟨hes, hr⟩ := entries?_inRange _ _ _ (not_not.1 hl) he
            exact .cueLoad _ _ ⟨by simp only [hes]; omega, by simp only [hes]; omega,
              (distinctChannels_iff _).1 (by simpa using hd)⟩ hr
        · exact .nothing
  · exact .nothing

theorem handleCueRead_effect (p : List Byte) (s : State) : RequestEffect s (handleCueRead p s).1 := by
  unfold handleCueRead
  split
  · split
    · exact .nothing
    · split <;> exact .nothing
  · exact .nothing

theorem handleCueClear_effect (p : List Byte) (s : State) : RequestEffect s (handleCueClear p s).1 := by
  unfold handleCueClear
  split
  · split
    · exact .nothing
    · split
      · exact .nothing
      · rename_i h; exact .cueClear _ (by simpa using h)
  · exact .nothing

theorem handleCueGo_effect (p : List Byte) (s : State) : RequestEffect s (handleCueGo p s).1 := by
  unfold handleCueGo
  split
  · split
    · exact .nothing
    · split
      · exact .nothing
      · unfold cueGo
        split
        · rename_i h1 h2; exact .cueGo _ _ h1 h2
        · exact .nothing
        · exact .nothing
  · exact .nothing

theorem handleCueArm_effect (p : List Byte) (s : State) : RequestEffect s (handleCueArm p s).1 := by
  unfold handleCueArm
  split
  · split
    · split
      · exact .nothing
      · rename_i h; exact .cueArm _ _ h
    · exact .nothing
  · exact .nothing

theorem handleCueDisarm_effect (p : List Byte) (s : State) : RequestEffect s (handleCueDisarm p s).1 := by
  unfold handleCueDisarm; split <;> [exact .cueDisarm; exact .nothing]

theorem handleCueStop_effect (p : List Byte) (s : State) : RequestEffect s (handleCueStop p s).1 := by
  unfold handleCueStop
  split
  · split
    · exact .nothing
    · rename_i h; exact .cueStop _ (List.mem_of_find?_eq_some h)
  · exact .nothing

theorem handleCueStopAll_effect (p : List Byte) (s : State) : RequestEffect s (handleCueStopAll p s).1 := by
  unfold handleCueStopAll; split <;> [exact .cueStopAll; exact .nothing]

theorem handleActiveRead_effect (p : List Byte) (s : State) : RequestEffect s (handleActiveRead p s).1 := by
  unfold handleActiveRead; split <;> exact .nothing

theorem handleStoreStatus_effect (p : List Byte) (s : State) : RequestEffect s (handleStoreStatus p s).1 := by
  unfold handleStoreStatus; split <;> exact .nothing

theorem handleStoreProgram_effect (p : List Byte) (s : State) : RequestEffect s (handleStoreProgram p s).1 := by
  unfold handleStoreProgram
  split
  · split <;> [exact .nothing; exact storeProgram_effect _ _ _ _ s (by omega); exact .nothing]
  · split
    · split
      · rename_i h _; exact storeProgram_effect _ _ _ _ s (time?_inRange h)
      · exact .nothing
    · exact .nothing
  · exact .nothing

theorem handleLabelSet_effect (p : List Byte) (s : State) : RequestEffect s (handleLabelSet p s).1 := by
  unfold handleLabelSet
  split
  · exact .labelSet _
  · exact .nothing

theorem storeLoadCurves_effect (s : State) : RequestEffect s (storeLoadCurves s).1 := by
  unfold storeLoadCurves
  split
  · exact .nothing
  · rename_i h
    split
    · exact .nothing
    · rename_i ho
      show RequestEffect s (s.applyCurves s.loadedCurves)
      exact .loadCurves (by simpa using h) (by simpa using ho)

theorem storeLoadTrims_effect (s : State) : RequestEffect s (storeLoadTrims s).1 := by
  unfold storeLoadTrims
  split
  · exact .nothing
  · rename_i h
    show RequestEffect s (s.applyTrims s.loadedTrims)
    exact .loadTrims (by simpa using h)

theorem storeLoadStartup_effect (s : State) : RequestEffect s (storeLoadStartup s).1 := by
  unfold storeLoadStartup
  split
  · exact .nothing
  · rename_i hp
    split
    · exact .nothing
    · rename_i h
      split
      · exact .nothing
      · rename_i x hx
        split
        · exact .nothing
        · rename_i hi
          split
          · exact .nothing
          · rename_i hl
            simp only [acceptLoad, accept]
            exact .replay x (by simpa using hp) (by simpa using h) hx (by simpa using hi) (Nat.lt_of_not_le hl)

theorem storeLoadLabel_effect (s : State) : RequestEffect s (storeLoadLabel s).1 := by
  unfold storeLoadLabel
  split
  · exact .nothing
  · rename_i h
    show RequestEffect s { s with label := s.loadedLabel }
    exact .loadLabel (by simpa using h)

theorem refuseStoreLoad_effect (p : List Byte) (s : State) : RequestEffect s (refuseStoreLoad p s).1 := by
  unfold refuseStoreLoad; split <;> exact .nothing

theorem handleStoreLoad_effect (p : List Byte) (s : State) : RequestEffect s (handleStoreLoad p s).1 := by
  unfold handleStoreLoad
  split
  · split <;> [exact storeLoadCurves_effect s; exact storeLoadTrims_effect s; exact storeLoadStartup_effect s;
      exact storeLoadLabel_effect s; exact refuseStoreLoad_effect _ s]
  · exact refuseStoreLoad_effect _ s

/-- Everything the execution of a request can make of the state. -/
theorem handlerOf_effect (k : RequestKind) (p : List Byte) (s : State) : RequestEffect s (handlerOf k p s).1 := by
  cases k
  · exact handleHello_effect p s
  · exact handleStatus_effect p s
  · exact handleFetch_effect p s
  · exact handleRestart_effect p s
  · exact handleSetProfile_effect p s
  · exact handleSetCeiling_effect p s
  · exact handleCurveWrite_effect p s
  · exact handleCurveRead_effect p s
  · exact handleBind_effect p s
  · exact handleTrimSet_effect p s
  · exact handleTrimSource_effect p s
  · exact handleChannelRead_effect p s
  · exact handleSetLevel_effect p s
  · exact handleCueLoad_effect p s
  · exact handleCueRead_effect p s
  · exact handleCueClear_effect p s
  · exact handleCueGo_effect p s
  · exact handleCueArm_effect p s
  · exact handleCueDisarm_effect p s
  · exact handleCueStop_effect p s
  · exact handleCueStopAll_effect p s
  · exact handleActiveRead_effect p s
  · exact handleStoreStatus_effect p s
  · exact handleStoreProgram_effect p s
  · exact handleStoreLoad_effect p s
  · exact handleLabelSet_effect p s

/-! ## Every command -/

/-- What a command that answers a next state can make of it, with the conditions under which it does. -/
inductive Change (s : State) : State → Prop
  /-- The event does not take place, or it changes nothing. -/
  | nothing : Change s s
  /-- A byte within a frame. -/
  | receives (r : Receiver) (h : s.deaf = false) (hr : r ≠ .hunt) (hs : ReceiverSound s.receiver → ReceiverSound r) :
      Change s (s.receiving r)
  /-- A frame that ends unexecuted is answered: a REJECT, or the stored reply of a repeat. -/
  | answers (f : Frame) (h : s.deaf = false) : Change s (s.toHunt.offer f)
  /-- A request is executed. -/
  | executes (k : RequestKind) (q : Byte) (p : List Byte) (hp : s.phase = .ready) (hb : s.breakDetector ≠ .latched)
      (hs : s.sending = none) :
      Change s (answered (handlerOf k p s).1 k q p (handlerOf k p s).2)
  | expiry (h : s.isHeld = false) : Change s s.expiry
  | takeEdge (h : s.edgeTaken = true) : Change s s.takeEdge
  | endProgram (p : Program) (o : ReadBack) (h : s.isHeld = false) (hp : s.inFlight = some p) : Change s (s.endProgram p o)
  | load (h : s.phase = .start) : Change s s.load
  | resetCondition (c : HoldCause) :
      Change s { s.cutProgram with phase := .held (heldCause s c), sending := none, restarting := false }
  | base (cause : ResetCause) (rate : BitRate) (h : s.phase = .held cause) : Change s (s.base cause rate)
  | oe (l : PinLevel) : Change s { s with oe := l }
  | timeout (h : s.isHeld = false) (hr : s.receiver ≠ .hunt) :
      Change s ((s.advanceTo s.timeoutAt).toHunt.offer (rejectFrame s.receiver.sequence .truncated))
  | endSending (x : Sending) (h : s.isHeld = false) (hx : s.sending = some x) : Change s (s.endSending x)
  | resetLink (t : Nat) (h : s.isHeld = false) (hb : s.breakDetector = .timing t) : Change s (s.resetLink t)
  | fallsHeld (h : s.isHeld = true) : Change s { s with rxd := .low }
  | fallsIdle (h : s.isHeld = false) (hb : s.breakDetector = .idle) :
      Change s { s with rxd := .low, breakDetector := .timing s.clock }
  | fallsAgain (h : s.isHeld = false) (hb : s.breakDetector ≠ .idle) : Change s { s with rxd := .low }
  | risesHeld (h : s.isHeld = true) : Change s { s with rxd := .high }
  | rises (h : s.isHeld = false) : Change s { s with rxd := .high, breakDetector := .idle }

/-- A part that receives and is not in the START phase is READY with no break standing. -/
theorem State.ready_of_not_deaf {s : State} (hd : s.deaf = false) (hp : s.phase ≠ .start) :
    s.phase = .ready ∧ s.breakDetector ≠ .latched := by
  constructor
  · cases hs : s.phase with
    | held c => simp [State.deaf, State.isHeld, hs] at hd
    | start => exact absurd hs hp
    | ready => rfl
  · intro hb; simp [State.deaf, hb] at hd

/-- The admission of a request, with its kind's handler. -/
theorem admit_change {k : RequestKind} {q : Byte} {p : List Byte} {s : State} (hd : s.deaf = false) (hp : s.phase ≠ .start) :
    Change s (s.toHunt.admission k (handlerOf k) q p) := by
  unfold State.admission
  split
  · exact .answers _ hd
  · split
    · exact .answers _ hd
    · rename_i h
      have idle : s.sending = none := by simpa using h
      rw [State.toHunt_execute (handlerOf_actsAside k) idle]
      obtain ⟨ready, unbroken⟩ := s.ready_of_not_deaf hd hp
      exact .executes k q p ready unbroken idle

/-- The shared step of the request rows, with the kind's handler. -/
theorem requestStep_change {k : RequestKind} {q : Byte} {p : List Byte} {s t : State}
    (h : requestStep k (handlerOf k) q p s = .next t) : Change s t := by
  unfold requestStep at h
  split at h
  · cases h
    cases hd : s.deaf with
    | true => exact .nothing
    | false =>
      simp only [Bool.false_eq_true, if_false, State.takeRequest]
      split
      · exact .answers _ hd
      · rename_i hp; exact admit_change hd hp
  · cases h

/-- A complete frame. -/
theorem judge_change (s : State) (q kind : Byte) (p : List Byte) (check : Half) (hd : s.deaf = false) :
    Change s (s.judge q kind p check) := by
  unfold State.judge
  split
  · exact .answers _ hd
  · split
    · exact .answers _ hd
    · rename_i hp
      split
      · exact .answers _ hd
      · exact admit_change hd hp

/-- A byte taken. -/
theorem takeByte_change (s : State) (b : Byte) (hd : s.deaf = false) : Change s (s.takeByte b) := by
  unfold State.takeByte
  split
  · split
    · exact .receives _ hd (by simp) (fun _ => trivial)
    · exact .nothing
  · exact .receives _ hd (by simp) (fun _ => trivial)
  · exact .receives _ hd (by simp) (fun _ => trivial)
  · split
    · exact .answers _ hd
    · rename_i h
      split
      · exact .receives _ hd (by simp) (fun _ => by simp [ReceiverSound])
      · rename_i h0
        exact .receives _ hd (by simp) (fun _ => ⟨Nat.pos_of_ne_zero h0, Nat.le_of_not_lt h⟩)
  · rename_i q k n got hr
    split <;> rename_i h <;> refine .receives _ hd (by simp) (fun hs => ?_) <;> rw [hr] at hs <;>
      simp only [ReceiverSound, List.length_append, List.length_singleton] at hs ⊢ <;> omega
  · rename_i q k got hr
    exact .receives _ hd (by simp) (fun hs => by rw [hr] at hs; exact hs)
  · exact judge_change s _ _ _ _ hd

/-- A request row that is not well formed is refused. -/
theorem exec_illFormed {c : Instr} {k : RequestKind} {q : Byte} {p : List Byte} (hr : requestOf c = some (k, q, p))
    (hw : c.wellFormed = false) (s t : State) : exec c s ≠ .next t := by
  have unfit (k : RequestKind) (run : Handler) (q : Byte) (p : List Byte) (h : payloadFits p = false) :
      requestStep k run q p s = .refused .illFormed := if_neg (of_decide_eq_false h)
  cases c with
  | storeLoadNoRecordKind q' p' =>
    show execStoreLoadNoRecordKind q' p' s ≠ _
    simp only [Instr.wellFormed, Bool.and_eq_false_iff, Bool.not_eq_false'] at hw
    unfold execStoreLoadNoRecordKind
    split
    · rename_i b
      have named : ∀ b : Byte, namesRecordKind [b] = true → (recordKind? b).isSome = true := by decide
      rcases hw with hw | hw
      · cases hw
      · obtain ⟨k', e⟩ := Option.isSome_iff_exists.1 (named b hw)
        rw [e]; exact fun h => by cases h
    · rename_i hp
      rcases hw with hw | hw
      · rw [unfit _ _ _ _ hw]; exact fun h => by cases h
      · unfold namesRecordKind at hw
        split at hw
        · exact absurd rfl (hp _)
        · cases hw
  | storeLoadCurves => cases hw
  | storeLoadTrims => cases hw
  | storeLoadLabel => cases hw
  | storeLoadStartup => cases hw
  | fadeClockExpiry => cases hr
  | goFallingEdge => cases hr
  | programCompletion => cases hr
  | loadCompletion => cases hr
  | resetCondition => cases hr
  | resetBase => cases hr
  | oeChange => cases hr
  | byteReceived => cases hr
  | framingError => cases hr
  | interByteTimeout => cases hr
  | transmissionEnd => cases hr
  | linkReset => cases hr
  | rxdFalls => cases hr
  | rxdRises => cases hr
  | _ => exact fun h => by cases (unfit _ _ _ _ hw).symm.trans h

/-- Everything a command that answers a next state can make of it. -/
theorem exec_change {c : Instr} {s t : State} (h : exec c s = .next t) : Change s t := by
  cases hr : requestOf c with
  | some r =>
    obtain ⟨k, q, p⟩ := r
    cases hw : c.wellFormed with
    | true => rw [exec_request hr hw] at h; exact requestStep_change h
    | false => exact absurd h (exec_illFormed hr hw s t)
  | none =>
    cases c <;> first | (simp [requestOf] at hr; done) | skip
    all_goals
      simp only [exec, execFadeClockExpiry, execGoFallingEdge, execProgramCompletion, execLoadCompletion, execResetCondition,
        execResetBase, execOeChange, execByteReceived, execFramingError, execInterByteTimeout, execTransmissionEnd,
        execLinkReset, execRxdFalls, execRxdRises] at h
      cases h
    case none.fadeClockExpiry.refl =>
      split
      · exact .nothing
      · rename_i h; exact .expiry (by simpa using h)
    case none.goFallingEdge.refl =>
      split
      · rename_i h; exact .takeEdge h
      · exact .nothing
    case none.programCompletion.refl o =>
      split
      · exact .nothing
      · rename_i h
        split
        · exact .nothing
        · rename_i p hp; exact .endProgram p o (by simpa using h) hp
    case none.loadCompletion.refl =>
      split
      · rename_i h; exact .load h
      · exact .nothing
    case none.resetCondition.refl cause => exact .resetCondition cause
    case none.resetBase.refl r1 r0 =>
      split
      · rename_i cause h; exact .base cause _ h
      · exact .nothing
    case none.oeChange.refl l => exact .oe l
    case none.byteReceived.refl b =>
      split
      · exact .nothing
      · rename_i h; exact takeByte_change s b (by simpa using h)
    case none.framingError.refl => exact .nothing
    case none.interByteTimeout.refl =>
      split
      · exact .nothing
      · rename_i h
        simp only [Bool.or_eq_true, decide_eq_true_eq, not_or, Bool.not_eq_true] at h
        exact .timeout h.1 h.2
    case none.transmissionEnd.refl =>
      split
      · exact .nothing
      · rename_i h
        split
        · exact .nothing
        · rename_i x hx; exact .endSending x (by simpa using h) hx
    case none.linkReset.refl =>
      split
      · exact .nothing
      · rename_i h
        split
        · rename_i t ht; exact .resetLink t (by simpa using h) ht
        · exact .nothing
    case none.rxdFalls.refl =>
      split
      · rename_i h; exact .fallsHeld h
      · rename_i h
        split
        · rename_i hb; exact .fallsIdle (by simpa using h) hb
        · rename_i hb; exact .fallsAgain (by simpa using h) hb
    case none.rxdRises.refl =>
      split
      · rename_i h; exact .risesHeld h
      · rename_i h; exact .rises (by simpa using h)

end Sys2Proof.Machine
end

