-- ==== Sys2Proof/Laws/Blocks.lean ====
section
/-!
SUPPORT. What the shared operations of the blocks do, said once each: the frame of the Cue Engine's operations (`CueWork`), entry states
in an Active List cut at one instance, the selection of generations, and the equations of the readings that claims use.
-/
namespace Sys2Proof.Machine

/-! ## The frame of cue work -/

/-- `t` differs from `s` at most in what the Cue Engine writes: channel records, the Active List, the next-id counter, the Follow List
and the Report Queue. -/
def CueWork (s t : State) : Prop :=
  t = { s with
    channels := t.channels
    active := t.active
    nextId := t.nextId
    follows := t.follows
    reports := t.reports
    overflow := t.overflow
    nextReport := t.nextReport }

namespace CueWork

variable {s t u : State}

theorem refl (s : State) : CueWork s s := rfl

theorem trans (h : CueWork s t) (h' : CueWork t u) : CueWork s u := by
  unfold CueWork at *
  rw [h']
  rw [h]

/-- A reading of the state that cue work does not write. -/
theorem field {α : Type} (f : State → α) (h : CueWork s t) :
    f t = f { s with
      channels := t.channels
      active := t.active
      nextId := t.nextId
      follows := t.follows
      reports := t.reports
      overflow := t.overflow
      nextReport := t.nextReport } := congrArg f h

theorem curves (h : CueWork s t) : t.curves = s.curves := field State.curves h
theorem profile (h : CueWork s t) : t.profile = s.profile := field State.profile h
theorem heldFrom (h : CueWork s t) : t.heldFrom = s.heldFrom := field State.heldFrom h
theorem activeClass (h : CueWork s t) : t.activeClass = s.activeClass := field State.activeClass h
theorem economyClass (h : CueWork s t) : t.economyClass = s.economyClass := field State.economyClass h
theorem cues (h : CueWork s t) : t.cues = s.cues := field State.cues h
theorem uptime (h : CueWork s t) : t.uptime = s.uptime := field State.uptime h
theorem armed (h : CueWork s t) : t.armed = s.armed := field State.armed h
theorem array (h : CueWork s t) : t.array = s.array := field State.array h
theorem map (h : CueWork s t) : t.map = s.map := field State.map h
theorem inFlight (h : CueWork s t) : t.inFlight = s.inFlight := field State.inFlight h
theorem phase (h : CueWork s t) : t.phase = s.phase := field State.phase h
theorem restarting (h : CueWork s t) : t.restarting = s.restarting := field State.restarting h
theorem receiver (h : CueWork s t) : t.receiver = s.receiver := field State.receiver h
theorem interByte (h : CueWork s t) : t.interByte = s.interByte := field State.interByte h
theorem breakDetector (h : CueWork s t) : t.breakDetector = s.breakDetector := field State.breakDetector h
theorem lastReply (h : CueWork s t) : t.lastReply = s.lastReply := field State.lastReply h
theorem sending (h : CueWork s t) : t.sending = s.sending := field State.sending h
theorem waiting (h : CueWork s t) : t.waiting = s.waiting := field State.waiting h
theorem rxd (h : CueWork s t) : t.rxd = s.rxd := field State.rxd h
theorem clock (h : CueWork s t) : t.clock = s.clock := field State.clock h

/-- The drive code of given inputs is the same after cue work. -/
theorem codeOf (h : CueWork s t) : t.codeOf = s.codeOf := by
  funext ch
  simp only [State.codeOf, State.ceiling, State.ceilingProfile, State.classOf, State.curveAt, h.profile, h.heldFrom, h.activeClass,
    h.economyClass, h.curves]

/-- A fold of cue work is cue work. -/
theorem foldl {α : Type} {f : State → α → State} (hf : ∀ s x, CueWork s (f s x)) (l : List α) (s : State) :
    CueWork s (l.foldl f s) := by
  induction l generalizing s with
  | nil => exact refl s
  | cons x l ih => exact (hf s x).trans (ih _)

theorem report (s : State) (b : ReportBody) : CueWork s (s.report b) := by
  unfold State.report
  split
  · rfl
  · split <;> rfl

theorem startEntry (s : State) (id : Byte) (e : CueEntry) : CueWork s (s.startEntry id e) := by
  unfold State.startEntry
  split
  · rfl
  · split <;> rfl

theorem startEntries (s : State) (id : Byte) (es : List CueEntry) : CueWork s (s.startEntries id es) :=
  foldl (fun s e => startEntry s id e) es s

theorem handOff (s : State) (c : CueIdx) : CueWork s (s.handOff c) := by
  unfold State.handOff
  split
  · rfl
  · exact report s _

theorem complete (s : State) (i : Instance) : CueWork s (s.complete i) := by
  unfold State.complete
  split
  · exact (report s _).trans (handOff _ _)
  · exact report s _

theorem sweep (s : State) : CueWork s s.sweep :=
  trans (t := s.dropFinished) rfl (foldl complete _ _)

theorem announce (s : State) (i : Instance) : CueWork s (s.announce i) := by
  unfold State.announce
  split
  · exact report s _
  · exact report s _
  · exact refl s

theorem launch (s : State) (i : Instance) : CueWork s (s.launch i) :=
  trans (t := s.join i) rfl ((announce _ i).trans ((startEntries _ _ _).trans (sweep _)))

theorem startCue (s : State) (c : CueIdx) (source : StartSource) (r : CueRecord) : CueWork s (s.startCue c source r) :=
  trans (t := s.takeId) rfl (launch _ _)

theorem startReported (s : State) (c : CueIdx) (source : StartSource) : CueWork s (s.startReported c source) := by
  unfold State.startReported
  split
  · exact startCue s _ _ _
  · exact refl s
  · exact report s _

theorem stopInstance (s : State) (i : Instance) : CueWork s (s.stopInstance i) :=
  trans (t := (s.releaseFades i).removeInstance i) rfl (report _ _)

theorem stopAll (s : State) : CueWork s (s.active.foldl State.stopInstance s).clearFollows :=
  (foldl stopInstance _ s).trans rfl

theorem startDueOn (s : State) (c : ChannelNo) : CueWork s (s.startDueOn c) := by
  unfold State.startDueOn
  split
  · exact refl s
  · rename_i newest _
    split
    · exact refl s
    · exact trans (t := s.mapActive fun i => if i.id = newest.id then i else i.loseDue c) rfl (startEntry _ _ _)

theorem startDue (s : State) : CueWork s s.startDue := foldl startDueOn _ s

/-- Steps 2 to 5 of an expiry (R46). -/
theorem cueWork (s : State) : CueWork s s.cueWork := by
  unfold State.cueWork
  split
  · exact trans (t := s.stepFades.advanceElapsed) rfl ((startDue _).trans (sweep _))
  · exact refl s

theorem serveOne (s : State) : CueWork s s.serveOne := by
  unfold State.serveOne
  split
  · exact refl s
  · exact trans (t := s.dropFollow) rfl (startReported _ _ _)

theorem serve (n : Nat) (s : State) : CueWork s (State.serve n s) := by
  induction n generalizing s with
  | zero => exact refl s
  | succ n ih => exact (serveOne s).trans (ih _)

/-- An expiry after its first step (R46). -/
theorem expiry (s : State) : CueWork s.tick s.expiry := (cueWork s.tick).trans (serve _ _)

end CueWork

/-! ## The calibration of channels under cue work -/

/-- No channel's slot, trim source or trims differ. -/
def SameCalibration (s t : State) : Prop :=
  ∀ c : ChannelNo, t.channels[c].slot = s.channels[c].slot ∧ t.channels[c].source = s.channels[c].source ∧
    t.channels[c].overrideTrim = s.channels[c].overrideTrim ∧ t.channels[c].storedTrim = s.channels[c].storedTrim

namespace SameCalibration

variable {s t u : State}

theorem of_channels (h : t.channels = s.channels) : SameCalibration s t := fun c => by rw [h]; simp

theorem trans (h : SameCalibration s t) (h' : SameCalibration t u) : SameCalibration s u := fun c => by
  obtain ⟨a, b, d, e⟩ := h c
  obtain ⟨a', b', d', e'⟩ := h' c
  exact ⟨a'.trans a, b'.trans b, d'.trans d, e'.trans e⟩

theorem mapChannels (f : ChannelNo → Channel → Channel)
    (hf : ∀ c ch, (f c ch).slot = ch.slot ∧ (f c ch).source = ch.source ∧ (f c ch).overrideTrim = ch.overrideTrim ∧
      (f c ch).storedTrim = ch.storedTrim) : SameCalibration s (s.mapChannels f) := fun c => by
  have e : (s.mapChannels f).channels[c] = f c s.channels[c] := by simp [State.mapChannels]
  rw [e]; exact hf c _

theorem foldl {α : Type} {f : State → α → State} (hf : ∀ s x, SameCalibration s (f s x)) (l : List α) (s : State) :
    SameCalibration s (l.foldl f s) := by
  induction l generalizing s with
  | nil => exact of_channels rfl
  | cons x l ih => exact (hf s x).trans (ih _)

theorem report (s : State) (b : ReportBody) : SameCalibration s (s.report b) := of_channels (by simp)

theorem startEntry (s : State) (id : Byte) (e : CueEntry) : SameCalibration s (s.startEntry id e) := by
  unfold State.startEntry
  split
  · exact of_channels rfl
  · split
    · exact trans (t := (s.takeOver e.channel).setEntry id e.channel .done) (of_channels rfl)
        (mapChannels _ fun c ch => by split <;> simp [State.recoded])
    · exact trans (t := (s.takeOver e.channel).setEntry id e.channel (.fading s.channels[e.channel].level 0)) (of_channels rfl)
        (mapChannels _ fun c ch => by split <;> simp)

theorem complete (s : State) (i : Instance) : SameCalibration s (s.complete i) := by
  unfold State.complete
  split
  · refine (report s (i.doneReport .complete)).trans ?_
    unfold State.handOff
    split
    · exact of_channels rfl
    · exact report _ _
  · exact report s _

theorem sweep (s : State) : SameCalibration s s.sweep := trans (t := s.dropFinished) (of_channels rfl) (foldl complete _ _)

theorem launch (s : State) (i : Instance) : SameCalibration s (s.launch i) := by
  refine trans (t := s.join i) (of_channels rfl) (trans (t := (s.join i).announce i) ?_ ?_)
  · unfold State.announce
    split
    · exact report _ _
    · exact report _ _
    · exact of_channels rfl
  · exact (foldl (fun s e => startEntry s i.id e) _ _).trans (sweep _)

theorem startCue (s : State) (c : CueIdx) (source : StartSource) (r : CueRecord) : SameCalibration s (s.startCue c source r) :=
  trans (t := s.takeId) (of_channels rfl) (launch _ _)

theorem startReported (s : State) (c : CueIdx) (source : StartSource) : SameCalibration s (s.startReported c source) := by
  unfold State.startReported
  split
  · exact startCue s _ _ _
  · exact of_channels rfl
  · exact report s _

theorem stopInstance (s : State) (i : Instance) : SameCalibration s (s.stopInstance i) :=
  trans (t := s.releaseFades i) (mapChannels _ fun c ch => by split <;> simp)
    (trans (t := (s.releaseFades i).removeInstance i) (of_channels rfl) (report _ _))

theorem startDueOn (s : State) (c : ChannelNo) : SameCalibration s (s.startDueOn c) := by
  unfold State.startDueOn
  split
  · exact of_channels rfl
  · rename_i newest _
    split
    · exact of_channels rfl
    · exact trans (t := s.mapActive fun i => if i.id = newest.id then i else i.loseDue c) (of_channels rfl) (startEntry _ _ _)

theorem cueWork (s : State) : SameCalibration s s.cueWork := by
  unfold State.cueWork
  split
  · refine trans (t := s.mapChannels s.stepChannel) (mapChannels _ fun c ch => ?_)
      (trans (t := s.stepFades.advanceElapsed) (of_channels rfl) ((foldl startDueOn _ _).trans (sweep _)))
    unfold State.stepChannel
    split <;> simp [State.recoded]
  · exact of_channels rfl

theorem serve (n : Nat) (s : State) : SameCalibration s (State.serve n s) := by
  induction n generalizing s with
  | zero => exact of_channels rfl
  | succ n ih =>
    refine trans (t := s.serveOne) ?_ (ih _)
    unfold State.serveOne
    split
    · exact of_channels rfl
    · exact trans (t := s.dropFollow) (of_channels rfl) (startReported _ _ _)

theorem expiry (s : State) : SameCalibration s s.expiry :=
  trans (t := s.tick) (of_channels rfl) ((cueWork _).trans (serve _ _))

end SameCalibration

/-! ## Instances -/

/-- An instance is finished when none of its entries is live (R51). -/
theorem Instance.finished_eq (i : Instance) : i.finished = !(i.entries.any EntryCopy.isLive) := by
  simp only [Instance.finished, List.any_eq_not_all_not, Bool.not_not]

/-- The entries with delay 0 of a fresh instance are those of its record (R39). -/
theorem atOnce_newInstance (id : Byte) (c : CueIdx) (source : StartSource) (r : CueRecord) :
    (newInstance id c source r).atOnce = r.entries.filter fun e => decide (e.delay = 0) := by
  simp [Instance.atOnce, newInstance, waitingCopy, Function.comp_def]

/-- A start that no check refuses (R39). -/
theorem State.startRefusal_eq_none {s : State} {c : CueIdx} {r : CueRecord} (hp : s.profile.running = true) (hr : s.cues[c] = some r)
    (hl : s.active.length < 4) : s.startRefusal c = none := by
  have h : ¬ Config.maxActive ≤ s.active.length := Nat.not_le_of_lt hl
  simp only [State.startRefusal, hr, reduceCtorEq, if_false, hp, Bool.not_true, Bool.false_eq_true, if_neg h]

theorem idHeld_iff {active : List Instance} {id : Byte} : idHeld active id = true ↔ ∃ i ∈ active, i.id = id := by
  simp [idHeld]

/-- The entries of a stopped instance count DONE, TAKEN and OVERRIDDEN as before, and its WAITING and FADING entries count CUT (R56). -/
theorem Instance.cutAll_doneReport (i : Instance) :
    i.cutAll.doneReport .stopped =
      .cueDone i.id i.cue .stopped (i.count (· == .done)) (i.count (· == .taken)) (i.count (· == .overridden))
        (i.entries.filter fun e => e.isLive || e.state == .cut).length := by
  have ended (p : EntryState → Bool) (h : p .cut = false) (hw : p .waiting = false) (hf : ∀ a b, p (.fading a b) = false) :
      i.cutAll.count p = i.count p := by
    simp only [Instance.count, Instance.cutAll, List.filter_map, List.length_map]
    congr 1
    apply List.filter_congr
    intro e _
    simp only [Function.comp]
    split
    · rename_i hl
      simp only [h]
      simp only [EntryCopy.isLive] at hl
      split at hl <;> simp_all
    · rfl
  have cut : i.cutAll.count (· == .cut) = (i.entries.filter fun e => e.isLive || e.state == .cut).length := by
    simp only [Instance.count, Instance.cutAll, List.filter_map, List.length_map]
    congr 1
    apply List.filter_congr
    intro e _
    simp only [Function.comp]
    split <;> simp_all
  simp only [Instance.doneReport]
  rw [ended _ rfl rfl fun _ _ => rfl, ended _ rfl rfl fun _ _ => rfl, ended _ rfl rfl fun _ _ => rfl, cut]
  rfl

/-! ## The Active List cut at one instance -/

/-- In a list of distinct ids, no instance before or behind one shares its id (R35). -/
theorem ids_of_split {older newer : List Instance} {i : Instance} (h : ((older ++ i :: newer).map Instance.id).Nodup) :
    (∀ j ∈ older, j.id ≠ i.id) ∧ (∀ j ∈ newer, j.id ≠ i.id) ∧ ∀ j ∈ older, ∀ k ∈ newer, j.id ≠ k.id := by
  simp only [List.map_append, List.map_cons, List.nodup_append, List.nodup_cons] at h
  refine ⟨fun j hj e => h.2.2 j.id (List.mem_map_of_mem hj) i.id (by simp) e,
    fun j hj e => h.2.1.1 (e ▸ List.mem_map_of_mem hj),
    fun j hj k hk e => h.2.2 j.id (List.mem_map_of_mem hj) k.id (List.mem_cons_of_mem _ (List.mem_map_of_mem hk)) e⟩

/-- The owner of a channel is newer than an instance when it stands behind it in the list (R35, R43). -/
theorem newerThan_split {older newer : List Instance} {i : Instance} (h : ∀ j ∈ older, j.id ≠ i.id) (owner : Byte) :
    newerThan (older ++ i :: newer) i.id owner = newer.any fun j => decide (j.id = owner) := by
  unfold newerThan
  rw [List.dropWhile_append_of_pos (by simpa using h)]
  simp

/-- An entry's state is written in its own instance alone. -/
theorem State.setEntry_active {s : State} {older newer : List Instance} {i : Instance} (ha : s.active = older ++ i :: newer)
    (ho : ∀ j ∈ older, j.id ≠ i.id) (hn : ∀ j ∈ newer, j.id ≠ i.id) (c : ChannelNo) (out : EntryState) :
    (s.setEntry i.id c out).active = older ++ i.setEntry c out :: newer := by
  have keep : ∀ l : List Instance, (∀ j ∈ l, j.id ≠ i.id) → l.map (fun j => if j.id = i.id then j.setEntry c out else j) = l := by
    intro l hl
    conv_rhs => rw [← List.map_id l]
    exact List.map_congr_left fun j hj => by rw [if_neg (hl j hj)]; rfl
  simp only [State.setEntry, State.mapActive, ha, List.map_append, List.map_cons, if_true, keep older ho, keep newer hn]

/-! ## The service of the Follow List -/

theorem State.serve_eq_iterate (n : Nat) (s : State) : State.serve n s = State.serveOne^[n] s := by
  induction n generalizing s with
  | zero => rfl
  | succ n ih => rw [State.serve, ih, Function.iterate_succ_apply]

/-! ## Generations -/

theorem vector4_eq {α : Type} (v : Vector α 4) : v = #v[v[0], v[1], v[2], v[3]] := by
  ext i hi
  match i, hi with
  | 0, _ => rfl
  | 1, _ => rfl
  | 2, _ => rfl
  | 3, _ => rfl

/-- The lowest BLANK generation (R101). -/
theorem GenMap.lowestBlank_iff (m : GenMap) (k : RecordKind) (g : GenIdx) :
    m.lowestBlank k = some g ↔ LowestBlank (m.ofKind k) g := by
  have all : ∀ a b c d : GenState, ∀ g : GenIdx,
      (List.finRange 4).find? (fun g => decide ((#v[a, b, c, d] : Vector GenState 4)[g] = .blank)) = some g ↔
        (#v[a, b, c, d] : Vector GenState 4)[g] = .blank ∧ ∀ g' : GenIdx, g' < g → (#v[a, b, c, d] : Vector GenState 4)[g'] ≠ .blank := by
    intro a b c d
    cases a <;> cases b <;> cases c <;> cases d <;> decide
  unfold GenMap.lowestBlank LowestBlank
  rw [vector4_eq (m.ofKind k)]
  exact all _ _ _ _ g

/-- The newest GOOD generation (R109). -/
theorem GenMap.newestGood_iff (m : GenMap) (k : RecordKind) (g : GenIdx) :
    m.newestGood k = some g ↔ NewestGood (m.ofKind k) g := by
  have all : ∀ a b c d : GenState, ∀ g : GenIdx,
      (List.finRange 4).reverse.find? (fun g => decide ((#v[a, b, c, d] : Vector GenState 4)[g] = .good)) = some g ↔
        (#v[a, b, c, d] : Vector GenState 4)[g] = .good ∧ ∀ g' : GenIdx, g < g' → (#v[a, b, c, d] : Vector GenState 4)[g'] ≠ .good := by
    intro a b c d
    cases a <;> cases b <;> cases c <;> cases d <;> decide
  unfold GenMap.newestGood NewestGood
  rw [vector4_eq (m.ofKind k)]
  exact all _ _ _ _ g

theorem GenMap.newestGood_eq_none (m : GenMap) (k : RecordKind) :
    m.newestGood k = none ↔ ∀ g : GenIdx, (m.ofKind k)[g] ≠ .good := by
  simp [GenMap.newestGood]

/-- Four used generations: the kind is exhausted (R101). -/
theorem GenMap.usedCount_eq_four (m : GenMap) (k : RecordKind) :
    m.usedCount k = 4 ↔ ∀ g : GenIdx, (m.ofKind k)[g].used = true := by
  have all : ∀ a b c d : GenState, ((#v[a, b, c, d] : Vector GenState 4).toList.filter GenState.used).length = 4 ↔
      ∀ g : GenIdx, (#v[a, b, c, d] : Vector GenState 4)[g].used = true := by
    intro a b c d
    cases a <;> cases b <;> cases c <;> cases d <;> decide
  unfold GenMap.usedCount
  rw [vector4_eq (m.ofKind k)]
  exact all _ _ _ _

/-- A cut program is recorded in the array alone (R107). -/
theorem State.cutProgram_eq (s : State) :
    s.cutProgram = { s with array := match s.inFlight with
      | none => s.array
      | some p => s.array.putBad p.generation p.snapshot.kind } := by
  rcases h : s.inFlight with _ | p <;> simp only [State.cutProgram, h]
  rw [← h]

/-! ## Generations, as the statements spell them -/

theorem withPlace_eq_set {α : Type} (v : Vector α 4) (g : GenIdx) (x : α) : withPlace v g x = v.set g x := by
  ext i hi
  simp only [withPlace, Vector.getElem_ofFn, Vector.getElem_set, Fin.ext_iff]
  by_cases h : i = g.val
  · simp [h]
  · simp [h, Ne.symm h]

/-- The map changes in the one place (R97). -/
theorem GenMap.setPlace_eq (m : GenMap) (g : GenIdx) (x : GenState) (k : RecordKind) : m.setPlace k g x = mapWith m g x k := by
  cases k <;> simp only [mapWith, withPlace_eq_set] <;> rfl

/-- The array changes in the one place, by the outcome (R96, R105). -/
theorem RetainedArray.put_eq (a : RetainedArray) (p : Program) (o : ReadBack) :
    a.put p o = arrayWith a p.generation p.snapshot o := by
  obtain ⟨g, x, _⟩ := p
  cases x <;> cases o <;> simp only [arrayWith, withPlace_eq_set] <;> rfl

/-- The map as the array is found (R96, R129). -/
theorem RetainedArray.found_eq (a : RetainedArray) :
    a.found = ⟨foundIn a.curves, foundIn a.trims, foundIn a.startup, foundIn a.label⟩ := by
  have place {α : Type} (v : Vector (Place α) 4) : (Vector.ofFn fun g : GenIdx => placeState v[g]) = foundIn v := by
    unfold foundIn
    congr 1
  simp only [RetainedArray.found, place]

/-! ## Starts on one channel -/

/-- `t` differs from `s` in channel `c` and in the states of the entries for it, and in nothing else. -/
structure OnChannel (c : ChannelNo) (s t : State) : Prop where
  rest : t = { s with channels := t.channels, active := t.active }
  channels : ∀ d, d ≠ c → t.channels[d] = s.channels[d]
  entries : ∀ d, d ≠ c → (t.active.map fun j => j.entries.filter fun x => decide (x.entry.channel = d)) =
    s.active.map fun j => j.entries.filter fun x => decide (x.entry.channel = d)
  copies : (t.active.map fun j : Instance =>
      { j with entries := j.entries.map fun x : EntryCopy => { x with state := EntryState.waiting } }) =
    s.active.map fun j : Instance => { j with entries := j.entries.map fun x : EntryCopy => { x with state := EntryState.waiting } }

namespace OnChannel

variable {c : ChannelNo} {s t u : State}

theorem refl (c : ChannelNo) (s : State) : OnChannel c s s := ⟨rfl, fun _ _ => rfl, fun _ _ => rfl, rfl⟩

theorem trans (h : OnChannel c s t) (k : OnChannel c t u) : OnChannel c s u := by
  refine ⟨?_, fun d hd => (k.channels d hd).trans (h.channels d hd), fun d hd => (k.entries d hd).trans (h.entries d hd),
    k.copies.trans h.copies⟩
  rw [k.rest, h.rest]

/-- A change of every instance by a change of the states of its entries for the channel. -/
theorem mapActive (c : ChannelNo) (s : State) (f : Instance → Instance)
    (hf : ∀ j, ∃ g : EntryCopy → EntryCopy, f j = { j with entries := j.entries.map g } ∧
      (∀ x, (g x).entry = x.entry) ∧ ∀ x, x.entry.channel ≠ c → g x = x) : OnChannel c s (s.mapActive f) := by
  refine ⟨rfl, fun _ _ => rfl, fun d hd => ?_, ?_⟩
  · simp only [State.mapActive, List.map_map]
    apply List.map_congr_left
    intro j _
    obtain ⟨g, hg, same, other⟩ := hf j
    simp only [Function.comp, hg]
    induction j.entries with
    | nil => rfl
    | cons x l ih =>
      simp only [List.map_cons, List.filter_cons, same, ih]
      split
      · rename_i hx
        rw [other x (by simp at hx; rw [hx]; exact hd)]
      · rfl
  · simp only [State.mapActive, List.map_map]
    apply List.map_congr_left
    intro j _
    obtain ⟨g, hg, same, -⟩ := hf j
    simp [Function.comp, hg, same]

theorem mapChannels (c : ChannelNo) (s : State) (f : ChannelNo → Channel → Channel) (hf : ∀ d ch, d ≠ c → f d ch = ch) :
    OnChannel c s (s.mapChannels f) :=
  ⟨rfl, fun d hd => by simp [State.mapChannels, hf d _ hd], fun _ _ => rfl, rfl⟩

theorem setEntry (s : State) (i : Byte) (c : ChannelNo) (out : EntryState) : OnChannel c s (s.setEntry i c out) := by
  refine mapActive c s _ fun j => ?_
  by_cases h : j.id = i
  · exact ⟨fun e => if e.entry.channel = c then { e with state := out } else e, by rw [if_pos h]; rfl,
      fun x => by dsimp only; split <;> rfl, fun x hx => if_neg hx⟩
  · exact ⟨fun e => e, by rw [if_neg h]; simp, fun _ => rfl, fun _ _ => rfl⟩

theorem takeOver (s : State) (c : ChannelNo) : OnChannel c s (s.takeOver c) :=
  mapActive c s _ fun j =>
    ⟨fun e => if decide (e.entry.channel = c) && e.isFading then { e with state := .taken } else e, rfl,
      fun x => by dsimp only; split <;> rfl, fun x hx => by simp [hx]⟩

/-- An entry's start acts on its own channel alone (R25, R43). -/
theorem startEntry (s : State) (i : Byte) (e : CueEntry) : OnChannel e.channel s (s.startEntry i e) := by
  have taken (out : EntryState) : OnChannel e.channel s ((s.takeOver e.channel).setEntry i e.channel out) :=
    (takeOver s _).trans (setEntry _ _ _ _)
  simp only [State.startEntry]
  split
  · exact setEntry _ _ _ _
  · split
    · exact (taken _).trans (mapChannels _ _ _ fun d ch h => if_neg h)
    · exact (taken _).trans (mapChannels _ _ _ fun d ch h => if_neg h)

/-- The starts of step 4 of an expiry on one channel act on that channel alone (R48). -/
theorem startDueOn (s : State) (c : ChannelNo) : OnChannel c s (s.startDueOn c) := by
  simp only [State.startDueOn]
  split
  · exact refl _ _
  · rename_i newest _
    split
    · exact refl _ _
    · rename_i e he
      have hc : e.channel = c := by
        simp only [Instance.dueOn, Option.map_eq_some_iff] at he
        obtain ⟨x, hx, rfl⟩ := he
        have := List.find?_some hx
        simp at this
        exact this.1
      refine (mapActive c s _ fun j => ?_).trans (hc ▸ startEntry _ _ _)
      by_cases h : j.id = newest.id
      · exact ⟨fun e => e, by rw [if_pos h]; simp, fun _ => rfl, fun _ _ => rfl⟩
      · exact ⟨fun e => if e.entry.channel = c ∧ j.entryDue e then { e with state := .taken } else e, by rw [if_neg h]; rfl,
          fun x => by dsimp only; split <;> rfl, fun x hx => by simp [hx]⟩

end OnChannel

end Sys2Proof.Machine
end

