-- ==== Sys2Proof/Laws/PerInstr.lean ====
section
/-!
SUPPORT. The law of frame lengths, row by row: a well-formed request row stands for a frame of 6 to 246 bytes (R150); the rows that
are no request stand for none.
-/
namespace Sys2Proof.Laws.FrameLength

open Sys2Proof.Machine

/-- The frame of a well-formed request row has 6 to 246 bytes: start byte, sequence, kind, length, a payload of 0 to 240 bytes, and a
check of two bytes (R150). -/
def Statement (i : Instr) : Prop :=
  ∀ (k : RequestKind) (q : Byte) (p : List Byte), requestOf i = some (k, q, p) → i.wellFormed = true →
    let bytes := frameBytes { seq := q, kind := k.code, payload := p }
    6 ≤ bytes.length ∧ bytes.length ≤ 246 ∧ bytes[3]? = some (byteOf p.length)

/-- The frame of a payload that fits (R150). -/
theorem of_fits {q : Byte} {k : RequestKind} {p : List Byte} (h : p.length ≤ 240) :
    let bytes := frameBytes { seq := q, kind := k.code, payload := p }
    6 ≤ bytes.length ∧ bytes.length ≤ 246 ∧ bytes[3]? = some (byteOf p.length) := by
  refine ⟨?_, ?_, rfl⟩ <;> simp only [frameBytes, List.length_append, List.length_cons, List.length_nil] <;> omega

/-- A request row whose only condition is that its payload fits. -/
theorem of_row {i : Instr} {k : RequestKind} {q : Byte} {p : List Byte} (hi : requestOf i = some (k, q, p))
    (hw : i.wellFormed = true → p.length ≤ 240) : Statement i := by
  intro k' q' p' hi' hw'
  obtain ⟨rfl, rfl, rfl⟩ : k = k' ∧ q = q' ∧ p = p' := by simpa [hi] using hi'
  exact of_fits (hw hw')

/-- A payload that fits a frame (R150). -/
theorem fits {p : List Byte} (h : payloadFits p = true) : p.length ≤ 240 := of_decide_eq_true h

/-- A row that is no request. -/
theorem of_none {i : Instr} (hi : requestOf i = none) : Statement i := by
  intro k q p hi'
  simp [hi] at hi'

theorem hello (seq : Byte) (payload : List Byte) : Statement (.hello seq payload) :=
  of_row rfl fits

theorem status (seq : Byte) (payload : List Byte) : Statement (.status seq payload) :=
  of_row rfl fits

theorem fetch (seq : Byte) (payload : List Byte) : Statement (.fetch seq payload) :=
  of_row rfl fits

theorem restart (seq : Byte) (payload : List Byte) : Statement (.restart seq payload) :=
  of_row rfl fits

theorem setProfile (seq : Byte) (payload : List Byte) : Statement (.setProfile seq payload) :=
  of_row rfl fits

theorem setCeiling (seq : Byte) (payload : List Byte) : Statement (.setCeiling seq payload) :=
  of_row rfl fits

theorem curveWrite (seq : Byte) (payload : List Byte) : Statement (.curveWrite seq payload) :=
  of_row rfl fits

theorem curveRead (seq : Byte) (payload : List Byte) : Statement (.curveRead seq payload) :=
  of_row rfl fits

theorem bind (seq : Byte) (payload : List Byte) : Statement (.bind seq payload) :=
  of_row rfl fits

theorem trimSet (seq : Byte) (payload : List Byte) : Statement (.trimSet seq payload) :=
  of_row rfl fits

theorem trimSource (seq : Byte) (payload : List Byte) : Statement (.trimSource seq payload) :=
  of_row rfl fits

theorem channelRead (seq : Byte) (payload : List Byte) : Statement (.channelRead seq payload) :=
  of_row rfl fits

theorem setLevel (seq : Byte) (payload : List Byte) : Statement (.setLevel seq payload) :=
  of_row rfl fits

theorem cueLoad (seq : Byte) (payload : List Byte) : Statement (.cueLoad seq payload) :=
  of_row rfl fits

theorem cueRead (seq : Byte) (payload : List Byte) : Statement (.cueRead seq payload) :=
  of_row rfl fits

theorem cueClear (seq : Byte) (payload : List Byte) : Statement (.cueClear seq payload) :=
  of_row rfl fits

theorem cueGo (seq : Byte) (payload : List Byte) : Statement (.cueGo seq payload) :=
  of_row rfl fits

theorem cueArm (seq : Byte) (payload : List Byte) : Statement (.cueArm seq payload) :=
  of_row rfl fits

theorem cueDisarm (seq : Byte) (payload : List Byte) : Statement (.cueDisarm seq payload) :=
  of_row rfl fits

theorem cueStop (seq : Byte) (payload : List Byte) : Statement (.cueStop seq payload) :=
  of_row rfl fits

theorem cueStopAll (seq : Byte) (payload : List Byte) : Statement (.cueStopAll seq payload) :=
  of_row rfl fits

theorem activeRead (seq : Byte) (payload : List Byte) : Statement (.activeRead seq payload) :=
  of_row rfl fits

theorem storeStatus (seq : Byte) (payload : List Byte) : Statement (.storeStatus seq payload) :=
  of_row rfl fits

theorem storeProgram (seq : Byte) (payload : List Byte) : Statement (.storeProgram seq payload) :=
  of_row rfl fits

theorem storeLoadCurves (seq : Byte) : Statement (.storeLoadCurves seq) := of_row rfl fun _ => by decide

theorem storeLoadTrims (seq : Byte) : Statement (.storeLoadTrims seq) := of_row rfl fun _ => by decide

theorem storeLoadLabel (seq : Byte) : Statement (.storeLoadLabel seq) := of_row rfl fun _ => by decide

theorem storeLoadStartup (seq : Byte) : Statement (.storeLoadStartup seq) := of_row rfl fun _ => by decide

theorem storeLoadNoRecordKind (seq : Byte) (payload : List Byte) : Statement (.storeLoadNoRecordKind seq payload) :=
  of_row rfl fun h => fits (Bool.and_eq_true _ _ ▸ h).1

theorem labelSet (seq : Byte) (payload : List Byte) : Statement (.labelSet seq payload) :=
  of_row rfl fits

theorem fadeClockExpiry : Statement .fadeClockExpiry := of_none rfl

theorem goFallingEdge : Statement .goFallingEdge := of_none rfl

theorem programCompletion (outcome : ReadBack) : Statement (.programCompletion outcome) := of_none rfl

theorem loadCompletion : Statement .loadCompletion := of_none rfl

theorem resetCondition (cause : HoldCause) : Statement (.resetCondition cause) := of_none rfl

theorem resetBase (rate1 rate0 : PinLevel) : Statement (.resetBase rate1 rate0) := of_none rfl

theorem oeChange (level : PinLevel) : Statement (.oeChange level) := of_none rfl

theorem byteReceived (byte : Byte) : Statement (.byteReceived byte) := of_none rfl

theorem framingError : Statement .framingError := of_none rfl

theorem interByteTimeout : Statement .interByteTimeout := of_none rfl

theorem transmissionEnd : Statement .transmissionEnd := of_none rfl

theorem linkReset : Statement .linkReset := of_none rfl

theorem rxdFalls : Statement .rxdFalls := of_none rfl

theorem rxdRises : Statement .rxdRises := of_none rfl

end Sys2Proof.Laws.FrameLength
end

