-- ==== Sys2Proof/Tests/Slice0.lean ====
section
/-!
SUPPORT. Our own tests: ill-formed terms refused, worked examples of the spec one step each, and for each statement with hypotheses
a state and operands that meet them. Each expected value is read from the section of spec/ that the test's comment names.
-/
namespace Sys2Proof.Tests

open Sys2Proof Sys2Proof.Machine

/-! ## WellFormed: one ill-formed term for each check -/

/-- A payload of 241 bytes, one more than a frame carries (R150). -/
def tooLong : List Byte := List.replicate 241 0

/-- Every request constructor with a payload, at one payload. -/
def requests (p : List Byte) : List Instr :=
  [.hello 0 p, .status 0 p, .fetch 0 p, .restart 0 p, .setProfile 0 p, .setCeiling 0 p, .curveWrite 0 p, .curveRead 0 p, .bind 0 p,
    .trimSet 0 p, .trimSource 0 p, .channelRead 0 p, .setLevel 0 p] ++
  [.cueLoad 0 p, .cueRead 0 p, .cueClear 0 p, .cueGo 0 p, .cueArm 0 p, .cueDisarm 0 p, .cueStop 0 p, .cueStopAll 0 p, .activeRead 0 p,
    .storeStatus 0 p, .storeProgram 0 p, .storeLoadNoRecordKind 0 p, .labelSet 0 p]

set_option maxRecDepth 8000 in
theorem test_payload_241_is_illFormed : (requests tooLong).all (fun i => !i.wellFormed) = true := by decide

set_option maxRecDepth 8000 in
theorem test_payload_240_is_wellFormed : (requests (List.replicate 240 0)).all Instr.wellFormed = true := by decide

theorem test_kind_of_another_row_is_illFormed :
    ([1, 2, 3, 4].map fun b => (Instr.storeLoadNoRecordKind 0 [b]).wellFormed) = [false, false, false, false] := by decide

theorem test_no_record_kind_is_wellFormed :
    ([0, 5, 255].map fun b => (Instr.storeLoadNoRecordKind 0 [b]).wellFormed) = [true, true, true] := by decide

set_option maxRecDepth 8000 in
theorem test_illFormed_is_refused :
    exec (.hello 0 tooLong) State.reset = .refused .illFormed ∧
    exec (.storeLoadNoRecordKind 0 [1]) State.reset = .refused .illFormed := ⟨rfl, rfl⟩

/-- No word of the table spells a command (spec/98_reader.md: 0 rows with fixed bits). -/
theorem test_no_word_spells : decodeTableWord 16 0xFFFF = none := rfl

/-! ## States for the tests -/

/-- READY with everything else at its reset value. -/
def ready : State := { State.reset with phase := .ready }

/-- The channels at reset but for one. -/
def channelsWith (c : ChannelNo) (ch : Channel) : Vector Channel 16 := (Vector.replicate 16 baseChannel).set c ch

/-- The state after a command, for one that answers a next state. -/
def after (i : Instr) (s : State) : State :=
  match exec i s with
  | .next t => t
  | _ => s

/-- The payload of the frame in transmission after a command. -/
def replyTo (i : Instr) (s : State) : Option (List Byte) := (after i s).sending.map fun x => x.frame.payload

/-- The status byte of the reply in transmission after a command. -/
def statusOf (i : Instr) (s : State) : Option Byte := (replyTo i s).bind List.head?

/-! ## The frame (9.2): the table of R151 and the frame below it -/

set_option maxRecDepth 8000 in
theorem test_crc_table : crc [0x01, 0x01, 0x00] = 0xC89D ∧ crc [0x31, 0x32, 0x33, 0x34, 0x35, 0x36, 0x37, 0x38, 0x39] = 0x29B1 := by decide

set_option maxRecDepth 8000 in
theorem test_frame_of_hello : frameBytes { seq := 0x01, kind := 0x01, payload := [] } = [0xC3, 0x01, 0x01, 0x00, 0xC8, 0x9D] := by decide

set_option maxRecDepth 8000 in
/-- The same bytes, received, leave what the row's command leaves. -/
theorem test_hello_by_bytes : feed [0xC3, 0x01, 0x01, 0x00, 0xC8, 0x9D] ready = exec (.hello 0x01 []) ready := by rfl

/-! ## The drive code (1.8): slot 3 with (0, 0), (200, 400), (600, 3000), (1000, 4095) -/

def curve18 : Curve := [⟨0, 0⟩, ⟨200, 400⟩, ⟨600, 3000⟩, ⟨1000, 4095⟩]

theorem test_curve_values : ([5, 451, 600, 700].map (curveValue curve18)) = [10, 2032, 3000, 3274] := by decide

/-- Channel 5 of section 1.8 at a level, with a source. -/
def state18 (level : Nat) (x : TrimSource) : State :=
  { ready with
    curves := (Vector.replicate 7 linearCurve).set 2 curve18
    channels := channelsWith 5 { baseChannel with level := level, slot := 3, source := x, overrideTrim := 180, storedTrim := -20 } }

theorem test_set_level_451 : ((after (.setLevel 1 [0x00, 0x20, 0x01, 0xC3]) (state18 0 .stored)).channels[5]).driveCode = 2012 := by decide

theorem test_trim_source_override : ((after (.trimSource 1 [0x00, 0x20, 0x01]) (state18 451 .stored)).channels[5]).driveCode = 2212 := by decide

theorem test_set_profile_economy : ((after (.setProfile 1 [0x01]) (state18 700 .override)).channels[5]).driveCode = 2457 := by decide

theorem test_trim_set_minus_255 :
    ((after (.trimSet 1 [0x00, 0x20, 0xFF, 0x01]) (state18 700 .override)).channels[5]).driveCode = 3019 := by decide

theorem test_sum_below_zero : (state18 5 .stored).codeOf (state18 5 .stored).channels[5] = 0 := by decide

theorem test_oe_low_delivers_zero :
    let s := after (.oeChange .high) (after (.setLevel 1 [0x00, 0x20, 0x01, 0xC3]) (state18 0 .stored))
    (s.delivered 5, (after (.oeChange .low) s).delivered 5) = (2012, 0) := by decide

/-! ## Ids (R38): the counter at 254 while 254 and 1 are held -/

theorem test_ids_pass_over_held_ones :
    let held (id : Byte) : Instance := { id := id, cue := none, source := .request, follow := none, elapsed := 0, entries := [] }
    (freeId [held 254, held 1] 2 254, nextIdAfter (freeId [held 254, held 1] 2 254)) = (255, 1) ∧
    (freeId [held 254, held 1, held 255] 3 1, nextIdAfter (freeId [held 254, held 1, held 255] 3 1)) = (2, 3) := by decide

/-! ## Cues (3.10): cue 1 of the worked example -/

def cue1 : CueRecord := { entries := [⟨0, 400, 4, 0⟩, ⟨1, 800, 4, 0⟩, ⟨2, 500, 2, 3⟩, ⟨3, 300, 2, 4⟩], follow := none }

/-- Instance 1 of section 3.10 right after its start. -/
def instance1 : Instance :=
  { id := 1, cue := some 0, source := .request, follow := none, elapsed := 0
    entries := [⟨⟨0, 400, 4, 0⟩, .fading 0 0⟩, ⟨⟨1, 800, 4, 0⟩, .fading 0 0⟩, ⟨⟨2, 500, 2, 3⟩, .waiting⟩, ⟨⟨3, 300, 2, 4⟩, .waiting⟩] }

def state310 : State := { ready with cues := (Vector.replicate 32 none).set 0 (some cue1) }

/-- Section 3.10 after CUE_GO 1. -/
def running : State :=
  { state310 with
    active := [instance1]
    nextId := 2
    channels := ((Vector.replicate 16 baseChannel).set 0 { baseChannel with owner := some 1 }).set 1 { baseChannel with owner := some 1 } }

theorem test_cue_go_starts_instance1 :
    (after (.cueGo 1 [1]) state310).active = [instance1] ∧ (after (.cueGo 1 [1]) state310).nextId = 2 ∧
      replyTo (.cueGo 1 [1]) state310 = some [0x00, 0x01] := by decide

theorem test_first_expiry :
    let t := after .fadeClockExpiry running
    (t.channels[0].level, t.channels[1].level, t.channels[2].level, t.uptime) = (100, 200, 0, 1) ∧
      (t.active.map fun i => (i.elapsed, i.entries.map EntryCopy.state)) = [(1, [.fading 0 1, .fading 0 1, .waiting, .waiting])] := by decide

/-- The payload of cue 1, field by field from the layout of R190. -/
def payload1 : List Byte := [1, 0, 4, 0, 1, 144, 0, 4, 0, 0, 1, 3, 32, 0, 4, 0, 0, 2, 1, 244, 0, 2, 0, 3, 3, 1, 44, 0, 2, 0, 4]

theorem test_cue_load : (after (.cueLoad 1 payload1) ready).cues[0] = some cue1 := by decide

theorem test_cue_read : replyTo (.cueRead 1 [1]) state310 = some (0x00 :: payload1) := by decide

theorem test_cue_stop_cuts :
    let t := after (.cueStop 1 [1]) running
    t.active = [] ∧ (t.channels[0]).owner = none ∧
      t.reports.map Report.body = [.cueDone 1 (some 0) .stopped 0 0 0 4] := by decide

/-! ## A full Follow List (4.5): the fifth CUE_GO 21 -/

def state45 : State :=
  { ready with
    nextId := 11
    follows := [21, 21, 21, 21]
    cues := (Vector.replicate 32 none).set 20 (some { entries := [⟨9, 1000, 0, 0⟩], follow := some 21 }) }

theorem test_fifth_cue_go_drops_its_follow :
    let t := after (.cueGo 1 [21]) state45
    replyTo (.cueGo 1 [21]) state45 = some [0x00, 0x0B] ∧ t.nextId = 12 ∧ t.follows = [21, 21, 21, 21] ∧ t.active = [] ∧
      t.reports.map Report.body = [.cueDone 11 (some 20) .complete 1 0 0 0, .startRefused 21 .follow .full] := by decide

/-! ## A fade through HOLD (5.9): the rounding of slot 0 and the ceiling of ECONOMY -/

theorem test_slot0_values : ([600, 700, 800, 900, 1000].map (curveValue linearCurve)) = [2457, 2867, 3276, 3686, 4095] := by decide

theorem test_set_ceiling_in_hold :
    let s := { ready with profile := .hold, heldFrom := .economy, channels := channelsWith 8 { baseChannel with level := 700, driveCode := 2457 } }
    ((after (.setCeiling 1 [1, 5]) s).channels[8]).driveCode = 2048 ∧ ((after (.setCeiling 1 [0, 2]) s).channels[8]).driveCode = 2457 := by decide

/-! ## Frames with more than one fault (10.8) -/

def state108 : State :=
  { ready with
    profile := .hold
    map := { blankMap with trims := #v[.good, .good, .writing, .blank], startup := #v[.good, .blank, .blank, .blank] }
    inFlight := some { generation := 2, snapshot := .trims (Vector.replicate 16 0), acceptedAt := 0 }
    cues := (Vector.replicate 32 none).set 2 (some { entries := [⟨0, 0, 0, 0⟩], follow := none })
    armed := some { cue := 2, mode := .once }
    channels := channelsWith 4 { baseChannel with owner := some 6, slot := 2 }
    active := [{ id := 5, cue := some 0, source := .request, follow := none, elapsed := 0, entries := [⟨⟨0, 1, 1, 1⟩, .waiting⟩] },
               { id := 6, cue := some 1, source := .request, follow := none, elapsed := 0, entries := [⟨⟨4, 1, 2, 0⟩, .fading 0 0⟩] }] }

theorem test_bind_refusals :
    [[0x00, 0x38, 1, 0], [0, 0, 9], [0x00, 0x38, 1]].map (fun p => statusOf (.bind 1 p) state108) = [some 0x10, some 0x11, some 0x31] := by
  decide

theorem test_curve_write_refusals :
    [[9, 1, 0, 0, 0, 0], [0, 1, 0, 0, 0, 0], [0, 2, 0, 0, 0, 0, 0x03, 0xE8, 0, 0], [2, 2, 0, 0, 0, 0, 0x03, 0xE8, 0, 0]].map
      (fun p => statusOf (.curveWrite 1 p) state108) = [some 0x11, some 0x12, some 0x14, some 0x31] := by decide

theorem test_cue_go_refusals :
    [[0], [12]].map (fun p => statusOf (.cueGo 1 p) state108) = [some 0x11, some 0x20] := by decide

theorem test_cue_arm_empty : statusOf (.cueArm 1 [12, 1]) state108 = some 0x30 := by decide

theorem test_cue_clear_armed : statusOf (.cueClear 1 [3]) state108 = some 0x31 := by decide

theorem test_cue_stop_not_found : statusOf (.cueStop 1 [200]) state108 = some 0x33 := by decide

theorem test_store_program_refusals :
    [[3, 2, 0, 100, 2], [1, 4], [2, 4, 0, 0, 0]].map (fun p => statusOf (.storeProgram 1 p) state108) =
      [some 0x11, some 0x21, some 0x10] := by decide

theorem test_store_load_refusals :
    (statusOf (.storeLoadStartup 1) state108, statusOf (.storeLoadLabel 1) state108) = (some 0x20, some 0x21) := by decide

theorem test_restart_length_before_busy : statusOf (.restart 1 [0]) state108 = some 0x10 := by decide

theorem test_standby_then_hold :
    statusOf (.setProfile 1 [3]) state108 = some 0x00 ∧
      statusOf (.setProfile 1 [2]) { state108 with profile := .standby } = some 0x20 := by decide

/-! ## Resets and start-up (7.7) and the report layouts (11.5) -/

theorem test_start_report_bytes :
    reportBytes { number := 0, time := 1, body := .start .pin ⟨2, true⟩ ⟨1, false⟩ ⟨1, true⟩ ⟨0, false⟩ } =
      [0x01, 0x00, 0x00, 0x00, 0x00, 0x00, 0x01, 0x02, 0x82, 0x01, 0x81, 0x00, 0x00, 0x00] := by decide

theorem test_cue_done_bytes :
    reportBytes { number := 1, time := 201, body := .cueDone 0 none .complete 16 0 0 0 } =
      [0x02, 0x00, 0x01, 0x00, 0x00, 0x00, 0xC9, 0x00, 0x00, 0x00, 0x10, 0x00, 0x00, 0x00] := by decide

/-- The notes of section 7.7: CURVES generation 2 with a BAD generation above it, TRIMS 1, STARTUP 1 with a BAD above, LABEL none. -/
theorem test_load_completion_report :
    let array : RetainedArray :=
      { curves := #v[.good (Vector.replicate 7 linearCurve), .good (Vector.replicate 7 linearCurve), .bad, .blank]
        trims := #v[.good (Vector.replicate 16 5), .blank, .blank, .blank]
        startup := #v[.bad, .bad, .blank, .blank]
        label := Vector.replicate 4 .blank }
    let t := after .loadCompletion { State.reset with array := array }
    t.phase = .ready ∧ t.channels[0].storedTrim = 5 ∧ t.attnLow = true ∧
      t.reports.map Report.body = [.start .power ⟨2, true⟩ ⟨1, false⟩ ⟨0, true⟩ ⟨0, false⟩] := by decide

theorem test_reset_base_needs_a_condition :
    (after (.resetBase .high .low) ready).bitRate = .r19200 ∧
      (after (.resetBase .high .low) (after (.resetCondition .pin) ready)).bitRate = .r115200 := by decide

/-! ## Programs (6.7, 9.9) -/

def state99 : State :=
  { ready with
    map := { blankMap with trims := #v[.good, .blank, .blank, .blank] }
    array := { blankArray with trims := #v[.good (Vector.replicate 16 0), .blank, .blank, .blank] } }

theorem test_program_accepted :
    replyTo (.storeProgram 0x40 [2, 2]) state99 = some [0x01, 0x02] ∧
      (after (.storeProgram 0x40 [2, 2]) state99).map.trims = #v[.good, .writing, .blank, .blank] := by decide

theorem test_program_completes :
    let t := after (.programCompletion .good) (after (.storeProgram 0x40 [2, 2]) state99)
    t.map.trims = #v[.good, .good, .blank, .blank] ∧ t.inFlight = none ∧ t.reports.map Report.body = [.programDone .trims 1 .good] := by decide

/-- 38 ms are left 10 ms after the acceptance. -/
theorem test_remaining_time :
    ({ ready with clock := 10000 } : State).remaining { generation := 1, snapshot := .trims (Vector.replicate 16 0), acceptedAt := 0 } = 38 := by
  decide

/-! ## Reports (8.8) -/

def state88 : State :=
  { ready with
    reports := (List.range 15).map fun n => { number := BitVec.ofNat 16 (20 + n), time := 0, body := .programDone .trims 0 .good }
    nextReport := 35 }

theorem test_overflow_begins :
    (state88.report (.programDone .trims 1 .good)).overflow = some { first := 35, lost := 1, time := 0 } ∧
      (state88.report (.programDone .trims 1 .good)).nextReport = 36 := by decide

set_option maxRecDepth 8000 in
theorem test_fetch_of_ten_leaves_five :
    let s := { state88 with overflow := some { first := 35, lost := 3, time := 0 }, nextReport := 38 }
    let t := after (.fetch 1 [10]) s
    t.reports.map Report.number = [30, 31, 32, 33, 34] ∧ t.overflow = s.overflow ∧
      (replyTo (.fetch 1 [10]) s).map List.length = some 142 := by decide

/-! ## The link -/

theorem test_length_240_and_241 :
    let s := { ready with receiver := .headerLength 9 3, interByte := some 0 }
    (after (.byteReceived 240) s).receiver = .payload 9 3 240 [] ∧ (after (.byteReceived 241) s).receiver = .hunt ∧
      replyTo (.byteReceived 241) s = some [0x03] := by decide

theorem test_timeout_right_after_the_start_byte :
    (after .interByteTimeout { ready with receiver := .headerSeq, interByte := some 0 }).sending.map Sending.frame =
      some { seq := 0, kind := 0xFF, payload := [0x02] } := by decide

theorem test_go_debounce :
    let s (now : Nat) := { ready with goEdge := some 0, clock := now }
    ((after .goFallingEdge (s 19999)).goEdge, (after .goFallingEdge (s 20000)).goEdge) = (some 0, some 20000) := by decide

theorem test_break_latches :
    let s := after .linkReset (after .rxdFalls { ready with lastReply := some ⟨1, 2, rejectFrame 1 .overrun⟩ })
    s.breakDetector = .latched ∧ s.lastReply = none ∧ s.clock = 20000 ∧ (after .rxdRises s).breakDetector = .idle := by decide

/-! ## Witnesses: for each statement with hypotheses, states and operands that meet them, at the boundaries of its clauses -/

/-- A READY state with nothing in transmission, no break and no stored reply executes every frame. -/
theorem executes_of {s : State} {k : RequestKind} {q : Byte} {p : List Byte} (hp : s.phase = .ready) (hb : s.breakDetector = .idle)
    (hs : s.sending = none) (hl : s.lastReply = none) (h : p.length ≤ 240) : Executes s k q p :=
  ⟨h, hp, by rw [hb]; decide, hs, by rw [State.repeatOf, hl]⟩

/-- Every request is executed in `ready`. -/
theorem executes_ready (k : RequestKind) (q : Byte) (p : List Byte) (h : p.length ≤ 240) : Executes ready k q p :=
  executes_of rfl rfl rfl rfl h

theorem engineSound_ready : EngineSound ready := by
  constructor
  · decide
  · decide
  · decide
  · intro c r h; exfalso; revert c; simp [ready, State.reset]
  · intro i hi; cases hi
  · intro c id; simp [ready, State.reset, baseChannel]
  · intro i hi; cases hi
  · intro i hi; cases hi
  · decide
  · decide
  · intro h; cases h
  · intro h; cases h

/-- In `running` the channels of instance 1's FADING entries are owned by it, and no other. -/
theorem owners_running : ∀ c : ChannelNo, running.channels[c].owner = if instance1.fades c then some 1 else none := by decide

theorem engineSound_running : EngineSound running := by
  constructor
  · decide
  · decide
  · decide
  · have all : ∀ c : CueIdx, running.cues[c] = none ∨ running.cues[c] = some cue1 := by decide
    intro c r h
    rcases all c with e | e <;> rw [e] at h
    · cases h
    · cases h; unfold RecordShaped; decide
  · have e : running.active = [instance1] := rfl
    rw [e]
    intro i hi
    rw [List.mem_singleton.1 hi]
    unfold InstanceShaped; decide
  · intro c id
    rw [owners_running c]
    have e : running.active = [instance1] := rfl
    rw [e]
    constructor
    · intro h
      split at h
      · rename_i hf; exact ⟨instance1, List.mem_singleton_self _, Option.some.inj h, hf⟩
      · cases h
    · rintro ⟨i, hi, rfl, hf⟩
      rw [List.mem_singleton.1 hi] at hf ⊢
      rw [if_pos hf]; rfl
  · decide
  · have e : running.active = [instance1] := rfl
    rw [e]
    intro i hi
    rw [List.mem_singleton.1 hi]
    simp [instance1, CopyTimed]
  · decide
  · decide
  · intro h; cases h
  · intro h; cases h

theorem rangesHold_ready : RangesHold ready := by
  constructor
  · decide
  · unfold TrimInRange; decide
  · unfold TrimInRange; decide
  · decide
  · intro c r h; exfalso; revert c; simp [ready, State.reset]
  · intro i hi; cases hi
  · intro g; revert g; simp [ready, State.reset, blankArray, PlaceInRange]
  · intro g; revert g; simp [ready, State.reset, blankArray, PlaceInRange]
  · intro g; revert g; simp [ready, State.reset, blankArray, PlaceInRange]
  · intro p hp; cases hp

theorem codesCurrent_ready : CodesCurrent ready := by unfold CodesCurrent; decide

theorem queueSound_ready : QueueSound ready := ⟨by decide, trivial⟩

theorem storeSound_ready : StoreSound ready := by
  constructor
  · intro k
    refine ⟨0, by omega, ?_⟩
    cases k <;> (unfold UsedPrefix; decide)
  · intro _; show ready.map = ready.array.found; decide
  · intro h; cases h
  · intro h; cases h
  · intro h; cases h

theorem linkSound_ready : LinkSound ready := by
  constructor <;> simp [ready, State.reset, ReceiverSound, State.isHeld]

theorem witness_StepRunsTheFrontCommand : State.reset.pending = [] := rfl

theorem witness_FrameBytesActAsTheirRequestRow :
    requestOf (.fetch 255 [16]) = some (.fetch, 255, [16]) ∧ (Instr.fetch 255 [16]).wellFormed = true ∧
      State.reset.receiver = .hunt ∧ ({ ready with breakDetector := .latched, receiver := .headerSeq } : State).deaf = true := by decide

set_option maxRecDepth 8000 in
theorem witness_RequestNotExecuted :
    requestOf (.hello 7 []) = some (.hello, 7, []) ∧ (Instr.hello 7 []).wellFormed = true ∧ State.reset.breakDetector ≠ .latched ∧
      State.reset.phase = .start ∧
      (let s := { ready with lastReply := some ⟨7, requestCheck .hello 7 [], rejectFrame 7 .overrun⟩ }
       s.phase = .ready ∧ s.breakDetector ≠ .latched ∧ ∃ r, s.lastReply = some r ∧ r.seq = 7 ∧ r.check = requestCheck .hello 7 []) ∧
      (let s := { ready with lastReply := some ⟨8, requestCheck .hello 7 [], rejectFrame 7 .overrun⟩,
                             sending := some ⟨rejectFrame 8 .overrun, 0⟩ }
       s.phase = .ready ∧ s.sending ≠ none ∧ ∀ r : LastReply, s.lastReply = some r → r.seq ≠ 7 ∨ r.check ≠ requestCheck .hello 7 []) := by
  refine ⟨rfl, rfl, by decide, rfl, ⟨rfl, by decide, _, rfl, rfl, rfl⟩, rfl, by simp, ?_⟩
  intro r h
  cases h
  left
  decide

set_option maxRecDepth 8000 in
theorem witness_CompleteFrameIsJudged :
    let s (phase : Phase) (kind : Byte) : State := { ready with phase := phase, receiver := .checkLow 1 kind [] 0xC8 }
    (s .ready 1).deaf = false ∧ (s .start 1).deaf = false ∧ ([] : List Byte).length ≤ 240 ∧
      ((0xC8 : Byte) ++ (0x9C : Byte) : Half) ≠ frameCheck 1 1 [] ∧ ((0xC8 : Byte) ++ (0x9D : Byte) : Half) = frameCheck 1 1 [] ∧
      (∀ k : RequestKind, k.code ≠ 0x05) ∧ requestOf (.hello 1 []) = some (.hello, 1, []) ∧ RequestKind.hello.code = 1 ∧
      (Instr.hello 1 []).wellFormed = true := by
  refine ⟨by decide, by decide, by decide, by decide, by decide, ?_, by decide, by decide, by decide⟩
  intro k
  cases k <;> decide

set_option maxRecDepth 8000 in
theorem witness_CompleteFrameIsJudged_unknown :
    let s : State := { ready with receiver := .checkLow 1 0x05 [] ((frameCheck 1 0x05 []).extractLsb' 8 8) }
    s.deaf = false ∧ s.phase = .ready ∧
      ((frameCheck 1 0x05 []).extractLsb' 8 8 ++ (frameCheck 1 0x05 []).extractLsb' 0 8 : Half) = frameCheck 1 0x05 [] := by decide

set_option maxRecDepth 8000 in
theorem witness_ReceiverTakesBytes :
    ({ ready with receiver := .payload 1 3 240 (List.replicate 239 0) } : State).deaf = false ∧ ready.receiver = .hunt ∧
      (List.replicate 239 (0 : Byte)).length + 1 = 240 ∧ ([] : List Byte).length + 1 < 240 ∧
      (0 : Byte).toNat = 0 ∧ 1 ≤ (1 : Byte).toNat ∧ (240 : Byte).toNat ≤ 240 ∧ 240 < (241 : Byte).toNat := by decide

theorem witness_OutboundQueue :
    let f := rejectFrame 1 .badCheck
    let x : Sending := ⟨f, 0⟩
    ready.sending = none ∧ ready.isHeld = false ∧
      ({ ready with sending := some x } : State).waiting = none ∧ ({ ready with sending := some x, waiting := some f } : State).sending = some x ∧
      ({ ready with sending := some x, restarting := true } : State).restarting = true := ⟨rfl, rfl, rfl, rfl, rfl⟩

theorem witness_RefusedRequestChangesNothing :
    requestOf (.fetch 1 [0]) = some (.fetch, 1, [0]) ∧ (Instr.fetch 1 [0]).wellFormed = true ∧ Executes ready .fetch 1 [0] :=
  ⟨rfl, rfl, executes_ready _ _ _ (by decide)⟩

/-- A payload one byte too long, and one value beside the end of a range for each request with a Fixed payload and a range. -/
theorem witness_LengthThenRange :
    fixedLength .labelSet = some 16 ∧ (List.replicate 17 (0 : Byte)).length ≠ 16 ∧ Executes ready .labelSet 1 (List.replicate 17 0) ∧
      Executes ready .storeLoad 1 [5] ∧ OutOfRange .fetch [0] ∧ OutOfRange .fetch [17] ∧ OutOfRange .setProfile [4] ∧ OutOfRange .setCeiling [2, 0] ∧
      OutOfRange .setCeiling [0, 6] ∧ OutOfRange .curveRead [8] ∧ OutOfRange .bind [0, 0, 0] ∧ OutOfRange .bind [0, 1, 8] ∧
      OutOfRange .trimSet [0, 1, 1, 0] ∧ OutOfRange .trimSet [0, 1, 0xFF, 0] ∧ OutOfRange .trimSource [0, 1, 2] ∧
      OutOfRange .channelRead [16] ∧ OutOfRange .setLevel [0, 1, 0x03, 0xE9] ∧ OutOfRange .cueRead [33] ∧ OutOfRange .cueClear [0] ∧
      OutOfRange .cueGo [33] ∧ OutOfRange .cueArm [1, 3] ∧ OutOfRange .storeLoad [5] := by
  refine ⟨rfl, by decide, executes_ready _ _ _ (by decide), executes_ready _ _ _ (by decide), ?_⟩
  unfold OutOfRange
  and_intros <;> decide

/-- Premises of the refusals by form, one payload too long and one field out of range, for the requests whose statements hold them. -/
theorem witness_FormRefusals :
    fixedLength .bind = some 3 ∧ Executes ready .bind 1 [0, 1, 7, 0] ∧ Executes ready .bind 1 [0, 0, 7] ∧ OutOfRange .bind [0, 0, 7] ∧
      fixedLength .cueStop = some 1 ∧ Executes ready .cueStop 1 [] ∧ fixedLength .fetch = some 1 ∧ Executes ready .fetch 1 [17] ∧
      OutOfRange .fetch [17] := by
  refine ⟨rfl, executes_ready _ _ _ (by decide), executes_ready _ _ _ (by decide), ?_, rfl, executes_ready _ _ _ (by decide), rfl,
    executes_ready _ _ _ (by decide), ?_⟩ <;> (unfold OutOfRange; decide)

theorem witness_InterByteTimeoutTruncates :
    ready.isHeld = false ∧ ready.receiver = .hunt ∧
      (let s := { ready with receiver := .checkLow 9 3 [1] 2, interByte := some 0 }
       s.isHeld = false ∧ s.interByte = some 0 ∧ s.receiver = .checkLow 9 3 [1] 2) := ⟨rfl, rfl, rfl, rfl, rfl⟩

theorem witness_BreakDetectorFollowsRxd :
    ready.isHeld = false ∧ ready.breakDetector = .idle ∧ ({ ready with breakDetector := .timing 5 } : State).breakDetector = .timing 5 ∧
      ({ ready with breakDetector := .latched } : State).breakDetector = .latched := ⟨rfl, rfl, rfl, rfl⟩

theorem witness_LinkSoundIsKept : LinkSound ready ∧ ∃ t, exec (.byteReceived 0xC3) ready = .next t := ⟨linkSound_ready, _, rfl⟩

theorem witness_OutputsFollowTheState :
    ready.oe = .low ∧ ({ ready with oe := .high } : State).oe = .high ∧ ready.phase = .ready ∧ ready.phase ≠ .held .power ∧
      ready.phase ≠ .held .pin ∧ State.reset.phase = .start ∧ ({ ready with phase := .held .pin } : State).phase = .held .pin ∧
      ({ ready with phase := .held .restart, oe := .high } : State).phase = .held .restart := by decide

/-- The last byte of a FETCH frame, next to the last byte of a STATUS frame that the statement leaves out. -/
theorem witness_OeActsOnThePinsAlone :
    let s := { ready with receiver := .checkLow 1 RequestKind.fetch.code [16] 0, interByte := some 0 }
    (∀ q p, Instr.byteReceived 7 ≠ .status q p) ∧ (∀ l, Instr.byteReceived 7 ≠ .oeChange l) ∧
      (∀ q p h, s.receiver ≠ .checkLow q RequestKind.status.code p h) ∧ ∃ t, exec (.byteReceived 7) s = .next t := by
  refine ⟨by simp, by simp, ?_, _, rfl⟩
  intro q p h e
  exact absurd (Receiver.checkLow.inj e).2.1 (by decide)

theorem witness_OwnedCalibrationIsFixed :
    EngineSound running ∧ ∃ t, exec .fadeClockExpiry running = .next t ∧ running.channels[(0 : ChannelNo)].owned = true ∧
      t.channels[(0 : ChannelNo)].owned = true := ⟨engineSound_running, _, rfl, by decide, by decide⟩

theorem witness_LevelsAreWrittenByTheseAlone :
    ∃ t, exec .fadeClockExpiry running = .next t ∧ t.channels[(0 : ChannelNo)].level ≠ running.channels[(0 : ChannelNo)].level :=
  ⟨_, rfl, by decide⟩

theorem witness_RangesAreKept : EngineSound ready ∧ RangesHold ready ∧ ∃ t, exec (.setLevel 1 [0, 1, 0x03, 0xE8]) ready = .next t :=
  ⟨engineSound_ready, rangesHold_ready, _, rfl⟩

theorem witness_CodesStayCurrent : CodesCurrent ready ∧ ∃ t, exec (.setLevel 1 [0, 1, 0x03, 0xE8]) ready = .next t :=
  ⟨codesCurrent_ready, _, rfl⟩

theorem witness_ValidCurveIsR4 :
    validCurve [⟨0, 0⟩, ⟨1000, 4096⟩] = false ∧ validCurve [⟨0, 0⟩, ⟨1000, 4095⟩] = true ∧
      Executes ready .curveWrite 1 (byteOf 0 :: byteOf 2 :: ([⟨0, 0⟩, ⟨1000, 4096⟩] : Curve).flatMap fun p => bytes16 p.input ++ bytes16 p.output) :=
  ⟨by decide, by decide, executes_ready _ _ _ (by decide)⟩

theorem witness_CurveValueIsR5 : validCurve curve18 = true ∧ 1000 ≤ 1000 ∧ curve18 = [⟨0, 0⟩] ++ ⟨200, 400⟩ :: ⟨600, 3000⟩ :: [⟨1000, 4095⟩] ∧
    200 < 201 ∧ 201 < 600 := by decide

/-- Sums at and beside both ends of the range 0 to the ceiling of class 5. -/
theorem witness_DriveCodeLaw :
    let s := { ready with activeClass := 5 }
    let ch (trim : Int) : Channel := { baseChannel with level := 500, storedTrim := trim }
    CeilingInForce s .active ∧ (ch 0).level ≠ 0 ∧ curveValue (s.curveAt 0) 500 = 2048 ∧
      (s.codeOf (ch 0), s.codeOf (ch 1), s.codeOf (ch (-255))) = (2048, 2048, 1793) ∧
      s.codeOf { ch (-5) with level := 1 } = 0 ∧ s.codeOf { ch (-4) with level := 1 } = 0 ∧ s.codeOf { ch (-3) with level := 1 } = 1 ∧
      CeilingInForce { ready with profile := .hold } .active := by
  refine ⟨.inl rfl, by decide, by decide, by decide, by decide, by decide, by decide, .inr ⟨rfl, rfl⟩⟩

theorem witness_BindBindsFreeChannels :
    (1 : Half) ≠ 0 ∧ Executes ready .bind 1 (maskBytes 1 ++ [byteOf 7]) ∧ (∀ c, selects 1 c = true → ready.channels[c].owned = false) ∧
      Executes running .bind 1 (maskBytes 1 ++ [byteOf 7]) ∧ (∃ c, selects 1 c = true ∧ running.channels[c].owned = true) ∧
      CodesCurrent ready ∧ ready.channels[(15 : ChannelNo)].slot = 0 :=
  ⟨by decide, executes_ready _ _ _ (by decide), by decide, executes_of rfl rfl rfl rfl (by decide), by decide, codesCurrent_ready, rfl⟩

theorem witness_TrimRequests :
    (0x8000 : Half) ≠ 0 ∧ TrimInRange (-255) ∧ TrimInRange 255 ∧ Executes ready .trimSet 1 (maskBytes 0x8000 ++ bytesSigned16 (-255)) ∧
      Executes ready .trimSource 1 (maskBytes 0x8000 ++ [TrimSource.override.code]) ∧ CodesCurrent ready ∧
      ready.channels[(0 : ChannelNo)].overrideTrim = ready.channels[(0 : ChannelNo)].storedTrim := by
  refine ⟨by decide, ?_, ?_, executes_ready _ _ _ (by decide), executes_ready _ _ _ (by decide), codesCurrent_ready, rfl⟩ <;>
    unfold TrimInRange <;> decide

theorem witness_CurveWriteReplacesTheSlot :
    Executes ready .curveWrite 1 [1] ∧ Executes ready .curveWrite 1 [8, 0] ∧ ([] : List Byte).length = 4 * (0 : Byte).toNat ∧
      7 < (8 : Byte).toNat ∧ (∀ p ∈ curve18, p.input < 65536 ∧ p.output < 65536) ∧ validCurve curve18 = true ∧ (7 : SlotNo) ≠ 0 ∧
      Executes ready .curveWrite 1 (byteOf 7 :: byteOf curve18.length :: (curve18.map fun p => bytes16 p.input ++ bytes16 p.output).flatten) ∧
      (∀ n : ChannelNo, ready.channels[n].owned = true → ready.channels[n].slot ≠ 7) ∧ validCurve [⟨0, 0⟩] = false ∧
      (∃ n : ChannelNo, state108.channels[n].owned = true ∧ state108.channels[n].slot = 2) :=
  ⟨executes_ready _ _ _ (by decide), executes_ready _ _ _ (by decide), rfl, by decide, by decide, by decide, by decide,
    executes_ready _ _ _ (by decide), by decide, by decide, by decide⟩

theorem witness_ReadRequestsShowTheState :
    Executes ready .curveRead 1 [byteOf 7] ∧ Executes ready .channelRead 1 [byteOf 15] ∧ Executes running .cueRead 1 [byteOf 1] ∧
      running.cues[(0 : CueIdx)] = some cue1 ∧ running.cues[(31 : CueIdx)] = none ∧ Executes running .activeRead 1 [] :=
  ⟨executes_ready _ _ _ (by decide), executes_ready _ _ _ (by decide), executes_of rfl rfl rfl rfl (by decide), rfl, rfl,
    executes_of rfl rfl rfl rfl (by decide)⟩

theorem witness_SetLevelOverrides :
    EngineSound running ∧ (3 : Half) ≠ 0 ∧ 1000 ≤ 1000 ∧ Executes running .setLevel 1 (maskBytes 3 ++ bytes16 1000) :=
  ⟨engineSound_running, by decide, by decide, executes_of rfl rfl rfl rfl (by decide)⟩

theorem witness_SetProfileChangesTheProfile :
    Executes ready .setProfile 1 [Profile.hold.code] ∧ Profile.hold ≠ ready.profile ∧ ¬(Profile.hold = .hold ∧ ready.profile = .standby) ∧
      Executes { ready with profile := .standby } .setProfile 1 [Profile.hold.code] ∧ Profile.active = ready.profile :=
  ⟨executes_ready _ _ _ (by decide), by decide, by decide, executes_of rfl rfl rfl rfl (by decide), rfl⟩

theorem witness_HoldKeepsTheCodes :
    CodesCurrent ready ∧ Executes ready .setProfile 1 [Profile.hold.code] ∧ (∃ t, exec (.setProfile 1 [Profile.hold.code]) ready = .next t) ∧
      ready.profile ≠ .standby := ⟨codesCurrent_ready, executes_ready _ _ _ (by decide), ⟨_, rfl⟩, by decide⟩

theorem witness_SetCeilingSetsTheClass :
    Executes ready .setCeiling 1 [RunProfile.active.code, byteOf 5] ∧ CeilingInForce ready .active ∧ ¬ CeilingInForce ready .economy := by
  refine ⟨executes_ready _ _ _ (by decide), .inl rfl, ?_⟩
  rintro (h | ⟨h, _⟩) <;> cases h

theorem witness_CueLoadReplacesTheRecord :
    Executes ready .cueLoad 1 [1, 0] ∧ (1 : Byte).toNat ≤ 32 ∧ EntryFields.OutOfRange ⟨16, 0, 0, 0⟩ ∧ EntryFields.OutOfRange ⟨0, 1001, 0, 0⟩ ∧
      EntryFields.OutOfRange ⟨0, 0, 60001, 0⟩ ∧ EntryFields.OutOfRange ⟨15, 1000, 60000, 60001⟩ ∧
      Executes ready .cueLoad 1 (1 :: 0 :: byteOf 1 :: ([(⟨16, 0, 0, 0⟩ : EntryFields)].map EntryFields.bytes).flatten) ∧
      (∀ e ∈ cue1.entries, EntryInRange e) ∧ (cue1.entries.map CueEntry.channel).Nodup ∧ Executes ready .cueLoad 1 (recordBytes 31 cue1) ∧
      ¬ (([⟨0, 0, 0, 0⟩, ⟨0, 1, 1, 1⟩] : List CueEntry).map CueEntry.channel).Nodup := by
  unfold EntryFields.OutOfRange EntryInRange
  exact ⟨executes_ready _ _ _ (by decide), by decide, by decide, by decide, by decide, by decide, executes_ready _ _ _ (by decide),
    by decide, by decide, executes_ready _ _ _ (by decide), by decide⟩

theorem witness_ArmSlotRequests :
    Executes running .cueArm 1 [byteOf 1, ArmMode.once.code] ∧ running.cues[(0 : CueIdx)] ≠ none ∧ running.cues[(31 : CueIdx)] = none ∧
      Executes running .cueDisarm 1 [] ∧ Executes running .cueClear 1 [byteOf 1] ∧ (∀ m, running.armed ≠ some ⟨0, m⟩) ∧
      (∃ m, state108.armed = some ⟨2, m⟩) :=
  ⟨executes_of rfl rfl rfl rfl (by decide), by decide, rfl, executes_of rfl rfl rfl rfl (by decide),
    executes_of rfl rfl rfl rfl (by decide), (fun m h => by cases h), ⟨_, rfl⟩⟩

theorem witness_ArmedCueStaysDefined :
    ArmDefined state108 ∧ ∃ t, exec (.cueClear 1 [byteOf 3]) state108 = .next t := by
  refine ⟨?_, _, rfl⟩
  intro a ha
  cases ha
  decide

theorem witness_CueGoStartsTheCue :
    Executes state310 .cueGo 1 [byteOf 1] ∧ state310.profile.running = true ∧ state310.cues[(0 : CueIdx)] = some cue1 ∧
      state310.active.length < 4 ∧ state310.cues[(31 : CueIdx)] = none ∧
      ({ state310 with profile := .hold } : State).profile.running = false ∧
      4 ≤ ({ state310 with active := List.replicate 4 instance1 } : State).active.length :=
  ⟨executes_of rfl rfl rfl rfl (by decide), rfl, rfl, by decide, rfl, rfl, by decide⟩

/-- A cue whose one entry waits for one expiry. -/
def delayed : State := { ready with cues := (Vector.replicate 32 none).set 31 (some { entries := [⟨15, 1000, 60000, 1⟩], follow := none }), nextId := 255 }

theorem engineSound_delayed : EngineSound delayed := by
  constructor
  · decide
  · decide
  · decide
  · have all : ∀ c : CueIdx, delayed.cues[c] = none ∨ delayed.cues[c] = some { entries := [⟨15, 1000, 60000, 1⟩], follow := none } := by decide
    intro c r h
    rcases all c with e | e <;> rw [e] at h
    · cases h
    · cases h; unfold RecordShaped; decide
  · intro i hi; cases hi
  · intro c id; simp [delayed, ready, State.reset, baseChannel]
  · intro i hi; cases hi
  · intro i hi; cases hi
  · decide
  · decide
  · intro h; cases h
  · intro h; cases h

theorem witness_DelayedCueJoinsTheTail :
    EngineSound delayed ∧ Executes delayed .cueGo 1 [byteOf 32] ∧ delayed.profile.running = true ∧
      delayed.cues[(31 : CueIdx)] = some { entries := [⟨15, 1000, 60000, 1⟩], follow := none } ∧ delayed.active.length < 4 ∧
      ∀ e ∈ [(⟨15, 1000, 60000, 1⟩ : CueEntry)], 0 < e.delay :=
  ⟨engineSound_delayed, executes_of rfl rfl rfl rfl (by decide), rfl, rfl, by decide, by decide⟩

/-- Two instances that wait on channel 4, the older one fading it. -/
def older4 : Instance := { id := 1, cue := none, source := .request, follow := none, elapsed := 2, entries := [⟨⟨4, 9, 9, 0⟩, .fading 0 2⟩] }

def waiting4 (id : Byte) (fade : Nat) : Instance :=
  { id := id, cue := none, source := .request, follow := none, elapsed := 2, entries := [⟨⟨4, 1000, fade, 2⟩, .waiting⟩] }

theorem witness_EntryStartTable :
    let s := { ready with active := [older4] ++ waiting4 2 0 :: [waiting4 3 60000], channels := channelsWith 4 { baseChannel with owner := some 1 } }
    (s.active.map Instance.id).Nodup ∧ { entry := ⟨4, 1000, 0, 2⟩, state := .waiting } ∈ (waiting4 2 0).entries ∧
      (∃ j ∈ [older4], s.channels[(4 : ChannelNo)].owner = some j.id) ∧ ready.channels[(4 : ChannelNo)].owner = none ∧
      (∃ j ∈ [waiting4 3 60000], (channelsWith 4 { baseChannel with owner := some 3 })[(4 : ChannelNo)].owner = some j.id) := by
  refine ⟨by decide, by decide, ⟨older4, by decide, by decide⟩, by decide, ⟨_, List.mem_singleton_self _, by decide⟩⟩

theorem witness_PausedExpiry :
    let s := { ready with profile := .standby, follows := [0, 31] }
    s.isHeld = false ∧ s.profile.running = false := ⟨rfl, rfl⟩

theorem witness_RunningExpiry :
    running.isHeld = false ∧ running.profile.running = true ∧
      (let u := { running with follows := [0, 31] }
       u.follows = 0 :: [31] ∧ u.cues[(0 : CueIdx)] = some cue1 ∧ u.cues[(31 : CueIdx)] = none ∧ u.active.length < 4) ∧
      4 ≤ ({ running with active := List.replicate 4 instance1 } : State).active.length ∧
      ({ running with profile := .hold } : State).profile.running = false := ⟨rfl, rfl, ⟨rfl, rfl, rfl, by decide⟩, by decide, rfl⟩

theorem witness_FadeStepFollowsR47 :
    EngineSound running ∧ instance1 ∈ running.active ∧ ⟨⟨0, 400, 4, 0⟩, .fading 0 0⟩ ∈ instance1.entries ∧ 0 < 4 ∧ 3 + 1 = 4 ∧
      running.channels[(15 : ChannelNo)].owner = none :=
  ⟨engineSound_running, by decide, by decide, by decide, rfl, rfl⟩

theorem witness_NewestDueEntryStarts :
    let s := { ready with active := [older4, waiting4 2 0] ++ waiting4 3 60000 :: [] }
    (s.active.map Instance.id).Nodup ∧ (∀ j ∈ s.active, (j.entries.map fun x => x.entry.channel).Nodup) ∧
      { entry := ⟨4, 1000, 60000, 2⟩, state := .waiting } ∈ (waiting4 3 60000).entries ∧ (waiting4 3 60000).elapsed = 2 ∧
      (∀ j ∈ s.active, ∀ x ∈ j.entries, ¬(x.entry.channel = 5 ∧ x.state = .waiting ∧ x.entry.delay = j.elapsed)) := by decide

theorem witness_SweepCompletesTheFinished :
    let i : Instance := { older4 with entries := [⟨⟨4, 9, 9, 0⟩, .done⟩], follow := some 31 }
    (∀ e ∈ i.entries, e.state = .done) ∧ i.follow = some 31 ∧ ready.follows.length < 4 ∧ 4 ≤ state45.follows.length ∧
      (∃ e ∈ older4.entries, e.state ≠ .done) := by decide

theorem witness_CueStopStopsOne :
    Executes running .cueStop 1 [1] ∧ running.active = [] ++ instance1 :: [] ∧ (running.active.map Instance.id).Nodup ∧ instance1.id = 1 ∧
      ∀ i ∈ running.active, i.id ≠ 200 := ⟨executes_of rfl rfl rfl rfl (by decide), rfl, by decide, rfl, by decide⟩

theorem witness_CueStopAllStopsAll : EngineSound running ∧ Executes running .cueStopAll 1 [] :=
  ⟨engineSound_running, executes_of rfl rfl rfl rfl (by decide)⟩

/-- Edges 19999 and 20000 microseconds after the last taken one. -/
theorem witness_GoEdgeFiresTheArmedCue :
    let s (now : Nat) := { running with goEdge := some 0, clock := now, armed := some ⟨0, .once⟩ }
    (∃ t, (s 19999).goEdge = some t ∧ (s 19999).clock < t + 20000) ∧ (∃ t, (s 20000).goEdge = some t ∧ t + 20000 ≤ (s 20000).clock) ∧
      (s 0).phase = .ready ∧ (s 0).cues[(0 : CueIdx)] = some cue1 ∧ (s 0).active.length < 4 ∧ (s 0).profile.running = true ∧
      running.armed = none ∧ running.goEdge = none ∧ State.reset.phase ≠ .ready :=
  ⟨⟨0, rfl, by decide⟩, ⟨0, rfl, by decide⟩, rfl, rfl, by decide, rfl, rfl, rfl, by decide⟩

theorem witness_EngineSoundIsKept : EngineSound running ∧ ∃ t, exec .fadeClockExpiry running = .next t := ⟨engineSound_running, _, rfl⟩

theorem witness_UptimeCountsExpiries : ∃ t, exec .fadeClockExpiry running = .next t := ⟨_, rfl⟩

theorem witness_StoreProgramTakesASnapshot :
    Executes state99 .storeProgram 1 [3, 2] ∧ [3, 2].length ≠ 5 ∧ Executes state99 .storeProgram 1 [5, 1] ∧
      Executes state99 .storeProgram 1 [3, 2, 0xEA, 0x61, 0] ∧ 60000 < word16 0xEA 0x61 ∧
      Executes state99 .storeProgram 1 [RecordKind.trims.code, byteOf 2] ∧ state99.inFlight = none ∧
      LowestBlank (state99.map.ofKind .trims) 1 ∧ ¬ LowestBlank (state99.map.ofKind .trims) 2 ∧
      (∃ g' : GenIdx, (state99.map.ofKind .trims)[g'].used = false) ∧ state108.inFlight ≠ none ∧
      (∀ g' : GenIdx, (({ blankMap with trims := Vector.replicate 4 .bad } : GenMap).ofKind .trims)[g'].used = true) := by
  unfold LowestBlank
  exact ⟨executes_of rfl rfl rfl rfl (by decide), by decide, executes_of rfl rfl rfl rfl (by decide),
    executes_of rfl rfl rfl rfl (by decide), by decide, executes_of rfl rfl rfl rfl (by decide), rfl, by decide, by decide, by decide,
    by decide, by decide⟩

theorem witness_ProgramCompletionSettles :
    ready.isHeld = false ∧ ready.inFlight = none ∧ state108.isHeld = false ∧
      (∃ p, state108.inFlight = some p ∧ p.snapshot = .trims (Vector.replicate 16 0)) := ⟨rfl, rfl, rfl, _, rfl, rfl⟩

theorem witness_StoreLoadReloads :
    Executes state99 .storeLoad 1 [2] ∧ state99.inFlight = none ∧ NewestGood state99.map.trims 0 ∧
      state99.array.trims[(0 : GenIdx)] = .good (Vector.replicate 16 0) ∧ (∀ g : GenIdx, state99.map.curves[g] ≠ .good) ∧
      (∀ c : ChannelNo, state99.channels[c].owned = true → state99.channels[c].slot = 0) ∧
      (∃ c : ChannelNo, state108.channels[c].owned = true ∧ state108.channels[c].slot ≠ 0) := by
  unfold NewestGood
  exact ⟨executes_of rfl rfl rfl rfl (by decide), rfl, by decide, rfl, by decide, by decide, by decide⟩

/-- A start-up scene of one level and one fade time. -/
def scene (level fade : Nat) : Scene :=
  { channels := Vector.replicate 16 { level := level, slot := 0, source := .stored }, fade := fade, profile := .active, activeClass := 0, economyClass := 4 }

/-- READY with one GOOD STARTUP generation. -/
def withScene : State :=
  { ready with
    array := { blankArray with startup := #v[.good (scene 1000 60000), .blank, .blank, .blank] }
    map := { blankMap with startup := #v[.good, .blank, .blank, .blank] } }

theorem witness_ReplayStartsTheScene :
    Executes withScene .storeLoad 1 [3] ∧ withScene.profile.running = true ∧ withScene.inFlight = none ∧ NewestGood withScene.map.startup 0 ∧
      withScene.array.startup[(0 : GenIdx)] = .good (scene 1000 60000) ∧ (∀ i ∈ withScene.active, i.id ≠ 0) ∧ withScene.active.length < 4 ∧
      (∀ g : GenIdx, ready.map.startup[g] ≠ .good) := by
  unfold NewestGood
  exact ⟨executes_of rfl rfl rfl rfl (by decide), rfl, rfl, by decide, rfl, by decide, by decide, by decide⟩

theorem witness_StoreSoundIsKept : StoreSound ready ∧ ∃ t, exec (.storeProgram 1 [2, 1]) ready = .next t := ⟨storeSound_ready, _, rfl⟩

theorem witness_FoundStateIsPermanent :
    StoreSound ready ∧ (∃ t, exec (.storeProgram 1 [2, 1]) ready = .next t) ∧ state99.array.trims[(0 : GenIdx)] ≠ .blank :=
  ⟨storeSound_ready, ⟨_, rfl⟩, by decide⟩

theorem witness_PartRequests :
    Executes ready .hello 1 [] ∧ Executes ready .status 1 [] ∧ Executes ready .storeStatus 1 [] ∧
      Executes ready .labelSet 1 (Vector.replicate 16 (0xFF : Byte)).toList ∧ Executes ready .restart 1 [] ∧ ready.inFlight = none ∧
      state108.inFlight ≠ none :=
  ⟨executes_ready _ _ _ (by decide), executes_ready _ _ _ (by decide), executes_ready _ _ _ (by decide), executes_ready _ _ _ (by decide),
    executes_ready _ _ _ (by decide), rfl, by decide⟩

theorem witness_ResetBaseGivesBaseValues :
    ready.isHeld = false ∧ ({ running with phase := .held .restart } : State).phase = .held .restart := ⟨rfl, rfl⟩

/-- The START phase over an array. -/
def starting (a : RetainedArray) : State := { State.reset with array := a }

theorem engineSound_starting (a : RetainedArray) : EngineSound (starting a) := by
  obtain ⟨four, ids, next, records, shaped, owned, live, timed, follows, _, _, _⟩ := engineSound_ready
  exact ⟨four, ids, next, records, shaped, owned, live, timed, follows, fun _ => ⟨rfl, rfl⟩,
    fun _ => (by decide : ∀ c : ChannelNo, State.reset.channels[c].level = 0), fun _ => ⟨rfl, rfl, rfl, rfl⟩⟩

/-- No GOOD generation, a scene of the longest fade time, and a scene of fade time 0 behind a BAD generation. -/
theorem witness_LoadCompletionEndsStart :
    ready.phase = .ready ∧ (starting blankArray).phase = .start ∧ EngineSound (starting blankArray) ∧
      EngineSound (starting { blankArray with startup := #v[.good (scene 1000 60000), .blank, .blank, .blank] }) ∧
      EngineSound (starting { blankArray with startup := #v[.good (scene 1000 0), .bad, .blank, .blank] }) :=
  ⟨rfl, rfl, engineSound_starting _, engineSound_starting _, engineSound_starting _⟩

set_option maxRecDepth 8000 in
/-- With fade time 0 the stored level stands at once, and START (STARTUP 1 with the fallback flag) and CUE_DONE are queued (R132). -/
theorem test_scene_at_once :
    let t := after .loadCompletion (starting { blankArray with startup := #v[.good (scene 1000 0), .bad, .blank, .blank] })
    t.channels[(3 : ChannelNo)].level = 1000 ∧ t.active = [] ∧
      t.reports.map Report.body = [.start .power ⟨0, false⟩ ⟨0, false⟩ ⟨1, true⟩ ⟨0, false⟩, .cueDone 0 none .complete 16 0 0 0] := by decide

set_option maxRecDepth 8000 in
/-- A report queued while the reply of a RESTART is sent holds ATTN low until the reset base (R125, R146). -/
theorem test_attn_to_the_reset_base :
    let t := after .transmissionEnd { state88 with restarting := true, sending := some ⟨rejectFrame 1 .overrun, 0⟩ }
    (t.attnLow, (after (.resetBase .low .low) t).attnLow, (after (.resetCondition .pin) t).attnLow) = (true, false, false) := by decide

theorem witness_FetchRemovesFromTheHead :
    1 ≤ 1 ∧ 16 ≤ 16 ∧ Executes ready .fetch 1 [byteOf 1] ∧ Executes ready .fetch 1 [byteOf 16] :=
  ⟨by decide, by decide, executes_ready _ _ _ (by decide), executes_ready _ _ _ (by decide)⟩

/-- 14 and 15 ordinary records, and a standing OVERFLOW record whose count is full. -/
theorem witness_ReportEvent :
    ready.overflow = none ∧ ({ state88 with reports := state88.reports.drop 1 } : State).reports.length = 14 ∧ state88.overflow = none ∧
      state88.reports.length = 15 ∧
      ({ state88 with overflow := some ⟨35, 65535, 0⟩ } : State).overflow = some ⟨35, 65535, 0⟩ := by decide

theorem witness_QueueSoundIsKept : QueueSound ready ∧ ∃ t, exec (.fetch 1 [16]) ready = .next t := ⟨queueSound_ready, _, rfl⟩

theorem witness_FrameCheckFollowsR151 : (0x01 : Byte) ≠ 0x02 := by decide

end Sys2Proof.Tests
end

section
/-!
The Cue Engine in steps: what each of its operations does, said once as a chain of seven kinds of step (`CueSteps`). An invariant of
the Cue Engine is proved by one case for each kind.
-/
namespace Sys2Proof.Machine

/-! ## What the Cue Engine does, step by step -/

/-- Each instance of a list by its id and the entries its copies are of: what no entry start and no fade step changes. -/
def roster (active : List Instance) : List (Byte × List CueEntry) :=
  active.map fun i => (i.id, i.entries.map EntryCopy.entry)

/-- An instance with the id holds a copy of the entry. -/
def HoldsEntry (active : List Instance) (id : Byte) (e : CueEntry) : Prop := ∃ es, (id, es) ∈ roster active ∧ e ∈ es

/-- A change of an instance that keeps its id and the entries of its copies, and gives no copy a FADING state it had not. -/
def EndsEntries (f : Instance → Instance) : Prop :=
  ∀ i, (f i).id = i.id ∧ ∃ g : EntryCopy → EntryCopy, (f i).entries = i.entries.map g ∧
    ∀ x, (g x).entry = x.entry ∧ ((g x).state = x.state ∨ (g x).isFading = false)

/-- `i` is a fresh record of a defined cue (R36), or the start-up instance of the scene that a load gives (R41). -/
def JoinsAs (s : State) (i : Instance) : Prop :=
  (∃ (c : CueIdx) (source : StartSource) (r : CueRecord), s.cues[c] = some r ∧ i = newInstance i.id c source r) ∨
    ∃ x, s.loadedScene = some x ∧ i = sceneInstance x

/-- One thing that the Cue Engine does. Every operation of it is a chain of these (`CueSteps`). -/
inductive CueStep (s : State) : State → Prop
  /-- A report, an id issued, the Follow List. -/
  | quiet {t : State} (frame : CueWork s t) (channels : t.channels = s.channels) (active : t.active = s.active) : CueStep s t
  | join (i : Instance) (fresh : idHeld s.active i.id = false) (h : JoinsAs s i) : CueStep s (s.join i)
  | start (id : Byte) (e : CueEntry) (h : HoldsEntry s.active id e) : CueStep s (s.startEntry id e)
  | stepFades : CueStep s s.stepFades
  | restate (f : Instance → Instance) (h : EndsEntries f) : CueStep s (s.mapActive f)
  | leave (p : Instance → Bool) : CueStep s { s with active := s.active.filter p }
  | release (i : Instance) : CueStep s (s.releaseFades i)

/-- A chain of steps of the Cue Engine. -/
def CueSteps (s t : State) : Prop := Relation.ReflTransGen CueStep s t

theorem CueWork.mapChannels (s : State) (f : ChannelNo → Channel → Channel) : CueWork s (s.mapChannels f) := rfl

theorem CueWork.mapActive (s : State) (f : Instance → Instance) : CueWork s (s.mapActive f) := rfl

theorem CueStep.cueWork {s t : State} (h : CueStep s t) : CueWork s t := by
  cases h with
  | quiet frame => exact frame
  | start id e => exact CueWork.startEntry s id e
  | join => rfl
  | stepFades => exact (CueWork.mapChannels s _).trans (CueWork.mapActive _ _)
  | restate f => exact CueWork.mapActive s f
  | leave => rfl
  | release => exact CueWork.mapChannels s _

/-! ### Fields that the primitive operations leave -/

@[simp] theorem State.join_active (s : State) (i : Instance) : (s.join i).active = s.active ++ [i] := rfl
@[simp] theorem State.join_channels (s : State) (i : Instance) : (s.join i).channels = s.channels := rfl

@[simp] theorem State.handOff_channels (s : State) (c : CueIdx) : (s.handOff c).channels = s.channels := by
  unfold State.handOff; split <;> simp

@[simp] theorem State.handOff_active (s : State) (c : CueIdx) : (s.handOff c).active = s.active := by
  unfold State.handOff; split <;> simp

@[simp] theorem State.complete_channels (s : State) (i : Instance) : (s.complete i).channels = s.channels := by
  unfold State.complete; split <;> simp

@[simp] theorem State.complete_active (s : State) (i : Instance) : (s.complete i).active = s.active := by
  unfold State.complete; split <;> simp

@[simp] theorem State.announce_channels (s : State) (i : Instance) : (s.announce i).channels = s.channels := by
  unfold State.announce; split <;> simp

@[simp] theorem State.announce_active (s : State) (i : Instance) : (s.announce i).active = s.active := by
  unfold State.announce; split <;> simp

/-- An entry's start leaves the ids and the entries of every instance. -/
theorem OnChannel.roster_eq {c : ChannelNo} {s t : State} (h : OnChannel c s t) : roster t.active = roster s.active := by
  have := congrArg roster h.copies
  simpa [roster, Function.comp_def] using this

theorem roster_startEntry (s : State) (id : Byte) (e : CueEntry) : roster (s.startEntry id e).active = roster s.active :=
  (OnChannel.startEntry s id e).roster_eq

theorem EndsEntries.roster_eq {f : Instance → Instance} (h : EndsEntries f) (l : List Instance) :
    roster (l.map f) = roster l := by
  simp only [roster, List.map_map]
  refine List.map_congr_left fun i _ => ?_
  obtain ⟨hid, g, hg, keeps⟩ := h i
  simp [Function.comp, hid, hg, keeps]

theorem holdsEntry_join (s : State) (i : Instance) {e : CueEntry} (he : e ∈ i.entries.map EntryCopy.entry) :
    HoldsEntry (s.join i).active i.id e :=
  ⟨_, by simp [roster], he⟩

/-- The entries that start with an instance are entries of it (R39). -/
theorem mem_entries_of_atOnce {i : Instance} {e : CueEntry} (h : e ∈ i.atOnce) : e ∈ i.entries.map EntryCopy.entry :=
  (List.mem_filter.1 h).1

theorem Instance.mem_of_dueOn {i : Instance} {c : ChannelNo} {e : CueEntry} (h : i.dueOn c = some e) :
    e ∈ i.entries.map EntryCopy.entry := by
  obtain ⟨x, hx, rfl⟩ := Option.map_eq_some_iff.1 h
  exact List.mem_map_of_mem (List.mem_of_find?_eq_some hx)

/-! ### Ids (R38) -/

/-- The first four ids that a start may take are distinct. -/
theorem nextIdAfter_iterate_injective : ∀ (id : Byte) (m k : Fin 4), nextIdAfter^[m.val] id = nextIdAfter^[k.val] id → m = k := by
  decide

/-- Where the search for an id ends at a held one, it has met held ids alone. -/
theorem held_of_freeId_held {active : List Instance} : ∀ {n : Nat} {id : Byte}, idHeld active (freeId active n id) = true →
    ∀ m ≤ n, idHeld active (nextIdAfter^[m] id) = true
  | 0, id, h, m, hm => by
    obtain rfl : m = 0 := by omega
    exact h
  | n + 1, id, h, m, hm => by
    rw [freeId] at h
    split at h
    · rename_i held
      cases m with
      | zero => exact held
      | succ m => exact held_of_freeId_held h m (by omega)
    · exact absurd h ‹_›

/-- With a free place in the list a start takes an id that no instance holds. -/
theorem State.issueId_free {s : State} (room : s.active.length < 4) : idHeld s.active s.issueId = false := by
  rw [Bool.eq_false_iff]
  intro held
  have distinct : ((List.range (s.active.length + 1)).map fun m => nextIdAfter^[m] s.nextId).Nodup := by
    refine List.Nodup.map_on (fun m hm k hk e => ?_) List.nodup_range
    rw [List.mem_range] at hm hk
    exact Fin.mk.inj (nextIdAfter_iterate_injective s.nextId ⟨m, by omega⟩ ⟨k, by omega⟩ e)
  have allHeld : ((List.range (s.active.length + 1)).map fun m => nextIdAfter^[m] s.nextId) ⊆ s.active.map Instance.id := by
    intro id hid
    obtain ⟨m, hm, rfl⟩ := List.mem_map.1 hid
    rw [List.mem_range] at hm
    exact List.mem_map.2 (idHeld_iff.1 (held_of_freeId_held held m (by omega)))
  have := (distinct.subperm allHeld).length_le
  simp at this

/-! ### The operations as chains of steps -/

/-- What no check of R39 refuses has a running profile and a free place. -/
theorem State.room_of_startRefusal {s : State} {c : CueIdx} (h : s.startRefusal c = none) : s.active.length < 4 := by
  unfold State.startRefusal at h
  split at h <;> [cases h; split at h] <;> [cases h; split at h] <;> [cases h; skip]
  rename_i hl
  exact Nat.lt_of_not_le hl

namespace CueSteps

variable {s t u : State}

theorem refl (s : State) : CueSteps s s := Relation.ReflTransGen.refl

theorem single (h : CueStep s t) : CueSteps s t := Relation.ReflTransGen.single h

theorem trans (h : CueSteps s t) (k : CueSteps t u) : CueSteps s u := Relation.ReflTransGen.trans h k

theorem quiet (frame : CueWork s t) (channels : t.channels = s.channels) (active : t.active = s.active) : CueSteps s t :=
  single (.quiet frame channels active)

/-- What every step keeps, a chain keeps. -/
theorem keeps {P : State → Prop} (hP : ∀ {s t}, P s → CueStep s t → P t) (h : CueSteps s t) (hs : P s) : P t := by
  induction h with
  | refl => exact hs
  | tail _ step ih => exact hP ih step

theorem cueWork_of (h : CueSteps s t) : CueWork s t := by
  induction h with
  | refl => exact CueWork.refl _
  | tail _ step ih => exact ih.trans step.cueWork

theorem foldl {α : Type} {f : State → α → State} (hf : ∀ s x, CueSteps s (f s x)) (l : List α) (s : State) :
    CueSteps s (l.foldl f s) := by
  induction l generalizing s with
  | nil => exact refl s
  | cons x l ih => exact (hf s x).trans (ih _)

theorem report (s : State) (b : ReportBody) : CueSteps s (s.report b) := quiet (CueWork.report s b) (by simp) (by simp)

theorem complete (s : State) (i : Instance) : CueSteps s (s.complete i) := quiet (CueWork.complete s i) (by simp) (by simp)

theorem sweep (s : State) : CueSteps s s.sweep := (single (.leave _)).trans (foldl complete _ _)

/-- Entries of one instance start one after another. -/
theorem startEntries (id : Byte) (es : List CueEntry) (s : State) (h : ∀ e ∈ es, HoldsEntry s.active id e) :
    CueSteps s (s.startEntries id es) := by
  induction es generalizing s with
  | nil => exact refl s
  | cons e es ih =>
    refine (single (.start id e (h e (by simp)))).trans (ih _ fun x hx => ?_)
    unfold HoldsEntry
    rw [roster_startEntry]
    exact h x (by simp [hx])

/-- Steps 4 to 6 of R39. -/
theorem launch_of_join (s : State) (i : Instance) : CueSteps (s.join i) (s.launch i) := by
  have announced : CueSteps (s.join i) ((s.join i).announce i) := quiet (CueWork.announce _ i) (by simp) (by simp)
  refine announced.trans ((startEntries i.id i.atOnce _ fun e he => ?_).trans (sweep _))
  rw [State.announce_active]
  exact holdsEntry_join s i (mem_entries_of_atOnce he)

theorem launch {i : Instance} (fresh : idHeld s.active i.id = false) (h : JoinsAs s i) : CueSteps s (s.launch i) :=
  (single (.join i fresh h)).trans (launch_of_join s i)

theorem startCue {c : CueIdx} {r : CueRecord} (source : StartSource) (h : s.startRefusal c = none) (hr : s.cues[c] = some r) :
    CueSteps s (s.startCue c source r) := by
  have idTaken : CueSteps s s.takeId := quiet rfl rfl rfl
  exact idTaken.trans (launch (s := s.takeId) (State.issueId_free (State.room_of_startRefusal h)) (.inl ⟨c, source, r, hr, rfl⟩))

theorem startScene {x : Scene} (fresh : idHeld s.active 0 = false) (hx : s.loadedScene = some x) : CueSteps s (s.startScene x) :=
  launch fresh (.inr ⟨x, hx, rfl⟩)

theorem startReported (s : State) (c : CueIdx) (source : StartSource) : CueSteps s (s.startReported c source) := by
  unfold State.startReported
  split
  · exact startCue source ‹_› ‹_›
  · exact refl s
  · exact report s _

theorem stopInstance (s : State) (i : Instance) : CueSteps s (s.stopInstance i) :=
  ((single (.release i)).trans (single (.leave _))).trans (report _ _)

theorem stopAll (s : State) : CueSteps s (s.active.foldl State.stopInstance s).clearFollows :=
  (foldl stopInstance _ s).trans (quiet rfl rfl rfl)

end CueSteps

/-- Losing to a newer instance ends entries (R48). -/
theorem endsEntries_loseDue (id : Byte) (c : ChannelNo) : EndsEntries fun i => if i.id = id then i else i.loseDue c := by
  intro i
  by_cases h : i.id = id
  · exact ⟨by simp [h], fun x => x, by simp [h], fun x => ⟨rfl, .inl rfl⟩⟩
  · refine ⟨by simp [h, Instance.loseDue], fun x => if x.entry.channel = c ∧ i.entryDue x then { x with state := .taken } else x,
      by simp [h, Instance.loseDue], fun x => ?_⟩
    dsimp only
    split
    · exact ⟨rfl, .inr rfl⟩
    · exact ⟨rfl, .inl rfl⟩

theorem endsEntries_advanceElapsed : EndsEntries fun i => { i with elapsed := i.elapsed + 1 } := fun i =>
  ⟨rfl, fun x => x, by simp, fun x => ⟨rfl, .inl rfl⟩⟩

/-- Ending the fades on some channels ends entries (R43, R54). -/
theorem endsEntries_endFades (p : ChannelNo → Bool) {out : EntryState} (h : ∀ a b, out ≠ .fading a b) :
    EndsEntries fun i => i.endFades p out := by
  intro i
  refine ⟨rfl, _, rfl, fun x => ?_⟩
  split
  · refine ⟨rfl, .inr ?_⟩
    cases out <;> simp_all [EntryCopy.isFading]
  · exact ⟨rfl, .inl rfl⟩

namespace CueSteps

variable {s t : State}

theorem startDueOn (s : State) (c : ChannelNo) : CueSteps s (s.startDueOn c) := by
  unfold State.startDueOn
  split
  · exact refl s
  · rename_i newest hnewest
    split
    · exact refl s
    · rename_i e he
      refine (single (.restate _ (endsEntries_loseDue newest.id c))).trans (single (.start _ _ ?_))
      unfold HoldsEntry
      rw [State.mapActive_active, (endsEntries_loseDue newest.id c).roster_eq]
      have present : newest ∈ s.active := (List.mem_filter.1 (List.mem_of_getLast? hnewest)).1
      exact ⟨_, List.mem_map_of_mem present, Instance.mem_of_dueOn he⟩

theorem cueWork (s : State) : CueSteps s s.cueWork := by
  unfold State.cueWork
  split
  · have elapsed : CueSteps s.stepFades s.stepFades.advanceElapsed := single (.restate _ endsEntries_advanceElapsed)
    exact (single .stepFades).trans (elapsed.trans ((foldl startDueOn _ _).trans (sweep _)))
  · exact refl s

theorem serve (n : Nat) (s : State) : CueSteps s (State.serve n s) := by
  induction n generalizing s with
  | zero => exact refl s
  | succ n ih =>
    refine trans (t := s.serveOne) ?_ (ih _)
    unfold State.serveOne
    split
    · exact refl s
    · exact (quiet (t := s.dropFollow) rfl rfl rfl).trans (startReported _ _ _)

/-- An expiry after its first step (R46). -/
theorem expiry (s : State) : CueSteps s.tick s.expiry := (cueWork _).trans (serve _ _)

/-- A taken edge sets the filter's time, then makes a start or none, then sets the Arm Slot (R67, R68, R69). -/
theorem takeEdge (s : State) : ∃ t o, CueSteps s.markEdge t ∧ s.takeEdge = t.setArmed o := by
  unfold State.takeEdge
  split
  · exact ⟨s.markEdge, s.armed, refl _, rfl⟩
  · rename_i a _
    have fired := startReported s.markEdge a.cue .goLine
    unfold State.fire
    split
    · exact ⟨_, armedAfter a, fired, rfl⟩
    · exact ⟨_, (s.markEdge.startReported a.cue .goLine).armed, fired, rfl⟩

end CueSteps

end Sys2Proof.Machine
end

section
/-!
Drive codes (R6 to R9): what they rest on, and that every command leaves them at the value of their inputs.
-/
namespace Sys2Proof.Machine

/-! ## The states after the requests on channels -/

/-- A channel with its override trim written by TRIM_SET (R12). -/
def State.withOverride (s : State) (trim : Int) (ch : Channel) : Channel :=
  match ch.source with
  | .override => s.recoded { ch with overrideTrim := trim }
  | .stored => { ch with overrideTrim := trim }

theorem trimSet_state (mask : Half) (trim : Int) (s : State) :
    (trimSet mask trim s).1 = s.mapSelected mask (s.withOverride trim) := rfl

theorem setTrimSource_state (mask : Half) (x : TrimSource) (s : State) :
    (setTrimSource mask x s).1 = s.mapSelected mask fun ch => s.recoded { ch with source := x } := rfl

/-- The levels that SET_LEVEL writes, before its entries and its sweep (R54). -/
def State.levelled (s : State) (mask : Half) (level : Nat) : State :=
  s.mapSelected mask fun ch => s.recoded { ch with level := level, owner := none }

theorem setLevel_state (mask : Half) (level : Nat) (s : State) :
    (setLevel mask level s).1 =
      ((s.levelled mask level).mapActive fun i => i.endFades (fun c => selects mask c) .overridden).sweep := rfl

/-! ## Drive codes (R9) -/

/-- The inputs that the drive codes of all channels share: the curves and what gives the ceiling in force (R5, R78). -/
def SameShared (s t : State) : Prop :=
  t.curves = s.curves ∧ t.profile = s.profile ∧ t.heldFrom = s.heldFrom ∧ t.activeClass = s.activeClass ∧
    t.economyClass = s.economyClass

theorem SameShared.codeOf_eq {s t : State} (h : SameShared s t) : t.codeOf = s.codeOf := by
  obtain ⟨curves, profile, heldFrom, activeClass, economyClass⟩ := h
  funext ch
  simp only [State.codeOf, State.ceiling, State.ceilingProfile, State.classOf, State.curveAt, curves, profile, heldFrom,
    activeClass, economyClass]

@[simp] theorem State.codeOf_mapChannels (s : State) (f : ChannelNo → Channel → Channel) : (s.mapChannels f).codeOf = s.codeOf :=
  SameShared.codeOf_eq (by simp [SameShared])

@[simp] theorem State.codeOf_mapActive (s : State) (f : Instance → Instance) : (s.mapActive f).codeOf = s.codeOf :=
  SameShared.codeOf_eq (by simp [SameShared])

@[simp] theorem State.codeOf_offer (s : State) (x : Frame) : (s.offer x).codeOf = s.codeOf :=
  SameShared.codeOf_eq (by simp [SameShared])

namespace CodesCurrent
variable {s t : State}

theorem congr (h : CodesCurrent s) (channels : t.channels = s.channels) (shared : SameShared s t) : CodesCurrent t := by
  intro c
  rw [shared.codeOf_eq, channels]
  exact h c

theorem mapChannels (f : ChannelNo → Channel → Channel)
    (hf : ∀ c : ChannelNo, (f c s.channels[c]).driveCode = s.codeOf (f c s.channels[c])) : CodesCurrent (s.mapChannels f) := fun c => by
  rw [State.mapChannels_channels, State.codeOf_mapChannels]
  exact hf c

theorem mapActive (h : CodesCurrent s) (f : Instance → Instance) : CodesCurrent (s.mapActive f) :=
  h.congr (by simp) (by simp [SameShared])

theorem recodeAll (s : State) : CodesCurrent s.recodeAll := mapChannels _ fun _ => rfl

theorem recode (p : Channel → Bool)
    (h : ∀ c : ChannelNo, p s.channels[c] = false → s.channels[c].driveCode = s.codeOf s.channels[c]) :
    CodesCurrent (s.recode p) := by
  refine mapChannels _ fun c => ?_
  split
  · rfl
  · rename_i passed
    exact h c (Bool.eq_false_iff.2 passed)

theorem mapSelected (h : CodesCurrent s) (mask : Half) (f : Channel → Channel)
    (hf : ∀ ch : Channel, ch.driveCode = s.codeOf ch → (f ch).driveCode = s.codeOf (f ch)) : CodesCurrent (s.mapSelected mask f) := by
  refine mapChannels _ fun c => ?_
  split
  · exact hf _ (h c)
  · exact h c

/-- An entry's start recomputes the code with the level, and leaves it with the level (R2, R43). -/
theorem startEntry (h : CodesCurrent s) (id : Byte) (e : CueEntry) : CodesCurrent (s.startEntry id e) := by
  have restated : ∀ out : EntryState, CodesCurrent ((s.takeOver e.channel).setEntry id e.channel out) := fun out =>
    h.congr rfl ⟨rfl, rfl, rfl, rfl, rfl⟩
  unfold State.startEntry
  split
  · exact h.congr rfl ⟨rfl, rfl, rfl, rfl, rfl⟩
  · split
    · refine mapChannels _ fun c => ?_
      split
      · rfl
      · exact restated _ c
    · refine mapChannels _ fun c => ?_
      split
      · exact restated _ c
      · exact restated _ c

theorem step (h : CodesCurrent s) (k : CueStep s t) : CodesCurrent t := by
  cases k with
  | quiet frame channels active =>
    exact h.congr channels ⟨frame.curves, frame.profile, frame.heldFrom, frame.activeClass, frame.economyClass⟩
  | join i => exact h.congr rfl ⟨rfl, rfl, rfl, rfl, rfl⟩
  | start id e => exact h.startEntry id e
  | stepFades =>
    have stepped : CodesCurrent (s.mapChannels s.stepChannel) := mapChannels _ fun c => by
      unfold State.stepChannel
      split
      · rfl
      · exact h c
    exact stepped.mapActive _
  | restate f => exact h.mapActive f
  | leave p => exact h.congr rfl ⟨rfl, rfl, rfl, rfl, rfl⟩
  | release i =>
    refine mapChannels _ fun c => ?_
    split
    · exact h c
    · exact h c
theorem steps (h : CodesCurrent s) (k : CueSteps s t) : CodesCurrent t := k.keeps step h

/-- TRIM_SET recomputes the codes that rest on the override trim, and leaves the others (R12). -/
theorem trimSet (h : CodesCurrent s) (mask : Half) (trim : Int) : CodesCurrent (Machine.trimSet mask trim s).1 := by
  rw [trimSet_state]
  refine h.mapSelected mask _ fun ch hch => ?_
  unfold State.withOverride
  split
  · rfl
  · rename_i stored
    exact hch.trans (s.codeOf_congr rfl rfl (by simp [Channel.effectiveTrim, stored]))

theorem trimSource (h : CodesCurrent s) (mask : Half) (x : TrimSource) : CodesCurrent (setTrimSource mask x s).1 := by
  rw [setTrimSource_state]
  exact h.mapSelected mask _ fun _ _ => rfl

/-- SET_LEVEL recomputes the codes of the selected channels, and its sweep leaves every channel (R54). -/
theorem setLevel (h : CodesCurrent s) (mask : Half) (level : Nat) : CodesCurrent (Machine.setLevel mask level s).1 := by
  have written : CodesCurrent (s.levelled mask level) := h.mapSelected mask _ fun _ _ => rfl
  rw [setLevel_state]
  exact steps (written.mapActive _) (CueSteps.sweep _)

end CodesCurrent

/-! ### The inputs that the channels share -/

/-- The state with a curve in slot `k` (1 to 7), before the codes are recomputed (R15). -/
def State.setCurve (s : State) (k : SlotNo) (c : Curve) : State := { s with curves := s.curves.setIfInBounds (k.val - 1) c }

theorem State.writeCurve_eq (s : State) (k : SlotNo) (c : Curve) :
    s.writeCurve k c = (s.setCurve k c).recode fun ch => decide (ch.slot = k) := rfl

/-- The state with the curves of slots 1 to 7, before the codes are recomputed (R111). -/
def State.setCurves (s : State) (c : Vector Curve 7) : State := { s with curves := c }

theorem State.applyCurves_eq (s : State) (c : Vector Curve 7) :
    s.applyCurves c = (s.setCurves c).recode fun ch => decide (ch.slot ≠ 0) := rfl

/-- A slot's curve stands where a curve is written into another slot (R3, R15). -/
theorem State.curveAt_setCurve_of_ne (s : State) {k k' : SlotNo} (c : Curve) (hk : k ≠ 0) (hne : k' ≠ k) :
    (s.setCurve k c).curveAt k' = s.curveAt k' := by
  have apart : k'.val ≠ 0 → k.val - 1 ≠ k'.val - 1 := fun h e =>
    hne (Fin.ext (by have := Fin.val_ne_of_ne hk; simp at this; omega))
  unfold State.curveAt
  split
  · rfl
  · rename_i h
    simp [State.setCurve, apart h]

@[simp] theorem State.curveAt_zero (s : State) : s.curveAt 0 = linearCurve := rfl

@[simp] theorem State.writeTrims_channels (s : State) (t : Vector Int 16) (c : ChannelNo) :
    (s.writeTrims t).channels[c] = { s.channels[c] with storedTrim := t[c] } := State.mapChannels_channels _ _ c

@[simp] theorem State.codeOf_writeTrims (s : State) (t : Vector Int 16) : (s.writeTrims t).codeOf = s.codeOf :=
  State.codeOf_mapChannels _ _

/-- Load completion, in its order (R129 to R133). -/
theorem State.load_eq (s : State) :
    s.load = (s.loadArray.applyLoaded.report s.loadArray.applyLoaded.startBody).playLoaded.becomeReady := rfl

/-- The drive code rests on the ceiling in force, the curve of the channel's slot and the channel's own inputs alone (R7, R8). -/
theorem State.codeOf_eq_of_shared {s t : State} {ch : Channel} (ceiling : t.ceiling = s.ceiling)
    (curve : t.curveAt ch.slot = s.curveAt ch.slot) : t.codeOf ch = s.codeOf ch := by
  simp only [State.codeOf, ceiling, curve]

/-- A class that gives no ceiling in force enters no code (R78, R85). -/
theorem State.ceiling_writeClass_aside {s : State} {p : RunProfile} (k : Fin 6) (aside : s.ceilingProfile ≠ some p) :
    (s.writeClass p k).ceiling = s.ceiling := by
  unfold State.ceiling
  rw [show (s.writeClass p k).ceilingProfile = s.ceilingProfile by cases p <;> rfl]
  cases hq : s.ceilingProfile with
  | none => rfl
  | some q =>
    have other : q ≠ p := fun e => aside (by rw [hq, e])
    have sameClass : (s.writeClass p k).classOf q = s.classOf q := by
      cases p <;> cases q <;> simp_all [State.classOf, State.writeClass]
    exact congrArg (fun c => some (classCeiling c)) sameClass

@[simp] theorem State.writeClass_channels (s : State) (p : RunProfile) (k : Fin 6) : (s.writeClass p k).channels = s.channels := by
  cases p <;> rfl

@[simp] theorem State.cutProgram_channels (s : State) : s.cutProgram.channels = s.channels := by
  unfold State.cutProgram; split <;> rfl

theorem SameShared.cutProgram (s : State) : SameShared s s.cutProgram := by
  unfold State.cutProgram; split <;> exact ⟨rfl, rfl, rfl, rfl, rfl⟩

@[simp] theorem State.endSending_channels (s : State) (x : Sending) : (s.endSending x).channels = s.channels := by
  unfold State.endSending; split <;> rfl

theorem SameShared.endSending (s : State) (x : Sending) : SameShared s (s.endSending x) := by
  unfold State.endSending; split <;> exact ⟨rfl, rfl, rfl, rfl, rfl⟩

namespace CodesCurrent

variable {s t : State}

theorem writeClass_aside (h : CodesCurrent s) {p : RunProfile} (k : Fin 6) (aside : s.ceilingProfile ≠ some p) :
    CodesCurrent (s.writeClass p k) :=
  fun c => by
    rw [State.writeClass_channels, h c]
    exact (State.codeOf_eq_of_shared (State.ceiling_writeClass_aside k aside) (by cases p <;> rfl)).symm

theorem writeCurve (h : CodesCurrent s) {k : SlotNo} (c : Curve) (hk : k ≠ 0) : CodesCurrent (s.writeCurve k c) := by
  rw [State.writeCurve_eq]
  refine recode (s := s.setCurve k c) _ fun n passed => ?_
  have other : s.channels[n].slot ≠ k := of_decide_eq_false passed
  have sameCode : (s.setCurve k c).codeOf s.channels[n] = s.codeOf s.channels[n] :=
    State.codeOf_eq_of_shared rfl (s.curveAt_setCurve_of_ne c hk other)
  exact (h n).trans sameCode.symm

/-- Slot 0 is fixed: curves loaded into the other slots enter no code of a channel bound to it (R3, R111). -/
theorem applyCurves (h : CodesCurrent s) (c : Vector Curve 7) : CodesCurrent (s.applyCurves c) := by
  rw [State.applyCurves_eq]
  refine recode (s := s.setCurves c) _ fun n passed => ?_
  have fixed : s.channels[n].slot = 0 := not_not.1 (of_decide_eq_false passed)
  have sameCode : (s.setCurves c).codeOf s.channels[n] = s.codeOf s.channels[n] :=
    State.codeOf_eq_of_shared rfl (by rw [fixed, State.curveAt_zero, State.curveAt_zero])
  exact (h n).trans sameCode.symm

/-- A stored trim enters no code of a channel whose source is OVERRIDE (R6, R112). -/
theorem applyTrims (h : CodesCurrent s) (v : Vector Int 16) : CodesCurrent (s.applyTrims v) := by
  refine recode (s := s.writeTrims v) _ fun n passed => ?_
  rw [State.writeTrims_channels] at passed ⊢
  rw [State.codeOf_writeTrims]
  have override : s.channels[n].source = .override := by
    cases hs : s.channels[n].source with
    | override => rfl
    | stored => rw [hs] at passed; cases passed
  have sameCode : s.codeOf { s.channels[n] with storedTrim := v[n] } = s.codeOf s.channels[n] :=
    s.codeOf_congr rfl rfl (by simp only [Channel.effectiveTrim, override])
  exact (h n).trans sameCode.symm

theorem afterProgram (h : CodesCurrent s) (p : Program) (o : ReadBack) : CodesCurrent (s.afterProgram p o) := by
  unfold State.afterProgram
  split
  · split
    · exact h.applyTrims _
    · exact h
  · exact h

theorem report (h : CodesCurrent s) (b : ReportBody) : CodesCurrent (s.report b) := h.steps (CueSteps.report s b)

theorem endProgram (h : CodesCurrent s) (p : Program) (o : ReadBack) : CodesCurrent (s.endProgram p o) := by
  have settled : CodesCurrent (s.settleProgram p o) := h.congr rfl ⟨rfl, rfl, rfl, rfl, rfl⟩
  exact ((settled.report _).afterProgram p o).congr rfl ⟨rfl, rfl, rfl, rfl, rfl⟩

theorem applyLoaded (h : CodesCurrent s) : CodesCurrent s.applyLoaded := by
  unfold State.applyLoaded
  split
  · exact recodeAll _
  · exact h

theorem playLoaded (h : CodesCurrent s) : CodesCurrent s.playLoaded := by
  unfold State.playLoaded
  split
  · rename_i x _
    have joined : CodesCurrent (s.join (sceneInstance x)) := h.congr rfl ⟨rfl, rfl, rfl, rfl, rfl⟩
    exact joined.steps (CueSteps.launch_of_join s _)
  · exact h

theorem becomeReady (h : CodesCurrent s) : CodesCurrent s.becomeReady := h.congr rfl ⟨rfl, rfl, rfl, rfl, rfl⟩

/-- Load completion recomputes every code, and the start-up instance starts as any other (R129 to R132). -/
theorem load (s : State) : CodesCurrent s.load := by
  have loaded : CodesCurrent s.loadArray := recodeAll _
  rw [State.load_eq]
  exact (loaded.applyLoaded.report _).playLoaded.becomeReady

theorem base (s : State) (cause : ResetCause) (rate : BitRate) : CodesCurrent (s.base cause rate) := by
  intro c
  have e : (s.base cause rate).channels[c] = baseChannel := by simp [State.base, State.reset]
  rw [e]
  rfl

/-- No request leaves a code behind its inputs. -/
theorem effect (h : CodesCurrent s) (k : RequestEffect s t) : CodesCurrent t := by
  cases k with
  | nothing => exact h
  | fetch m => exact h.congr rfl ⟨rfl, rfl, rfl, rfl, rfl⟩
  | restart => exact h.congr rfl ⟨rfl, rfl, rfl, rfl, rfl⟩
  | setProfile p => exact recodeAll _
  | setCeilingInForce p k => exact recodeAll _
  | setCeilingAside p k aside => exact h.writeClass_aside k aside
  | curveWrite k c _ hk => exact h.writeCurve c hk
  | bind mask k => exact h.mapSelected mask _ fun _ _ => rfl
  | trimSet mask trim => exact h.trimSet mask trim
  | trimSource mask x => exact h.trimSource mask x
  | setLevel mask level => exact h.setLevel mask level
  | cueLoad c r => exact h.congr rfl ⟨rfl, rfl, rfl, rfl, rfl⟩
  | cueClear c => exact h.congr rfl ⟨rfl, rfl, rfl, rfl, rfl⟩
  | cueGo c r refusal hr => exact h.steps (CueSteps.startCue .request refusal hr)
  | cueArm c m => exact h.congr rfl ⟨rfl, rfl, rfl, rfl, rfl⟩
  | cueDisarm => exact h.congr rfl ⟨rfl, rfl, rfl, rfl, rfl⟩
  | cueStop i => exact h.steps (CueSteps.stopInstance s i)
  | cueStopAll => exact h.steps (CueSteps.stopAll s)
  | storeProgram k g fade p => exact h.congr rfl ⟨rfl, rfl, rfl, rfl, rfl⟩
  | loadCurves => exact h.applyCurves _
  | loadTrims => exact h.applyTrims _
  | loadLabel => exact h.congr rfl ⟨rfl, rfl, rfl, rfl, rfl⟩
  | replay x _ _ hx fresh => exact h.steps (CueSteps.startScene fresh hx)
  | labelSet v => exact h.congr rfl ⟨rfl, rfl, rfl, rfl, rfl⟩

theorem change (h : CodesCurrent s) (k : Change s t) : CodesCurrent t := by
  cases k with
  | nothing => exact h
  | receives r => exact h.congr rfl ⟨rfl, rfl, rfl, rfl, rfl⟩
  | answers f => exact h.congr (by simp) (by simp [SameShared])
  | executes k q p => exact (h.effect (handlerOf_effect k p s)).congr rfl ⟨rfl, rfl, rfl, rfl, rfl⟩
  | expiry => exact steps (s := s.tick) (h.congr rfl ⟨rfl, rfl, rfl, rfl, rfl⟩) (CueSteps.expiry s)
  | takeEdge =>
    obtain ⟨u, o, steps', e⟩ := CueSteps.takeEdge s
    rw [e]
    exact (steps (s := s.markEdge) (h.congr rfl ⟨rfl, rfl, rfl, rfl, rfl⟩) steps').congr rfl ⟨rfl, rfl, rfl, rfl, rfl⟩
  | endProgram p o => exact h.endProgram p o
  | load => exact load s
  | resetCondition c =>
    have cut : CodesCurrent s.cutProgram := h.congr (by simp) (SameShared.cutProgram s)
    exact cut.congr rfl ⟨rfl, rfl, rfl, rfl, rfl⟩
  | base cause rate => exact base s cause rate
  | oe l => exact h.congr rfl ⟨rfl, rfl, rfl, rfl, rfl⟩
  | timeout => exact h.congr (by simp) (by simp [SameShared])
  | endSending x => exact h.congr (by simp) (SameShared.endSending s x)
  | resetLink t => exact h.congr (by simp [State.resetLink]) (by simp [SameShared, State.resetLink])
  | fallsHeld => exact h.congr rfl ⟨rfl, rfl, rfl, rfl, rfl⟩
  | fallsIdle => exact h.congr rfl ⟨rfl, rfl, rfl, rfl, rfl⟩
  | fallsAgain => exact h.congr rfl ⟨rfl, rfl, rfl, rfl, rfl⟩
  | risesHeld => exact h.congr rfl ⟨rfl, rfl, rfl, rfl, rfl⟩
  | rises => exact h.congr rfl ⟨rfl, rfl, rfl, rfl, rfl⟩

end CodesCurrent

/-- Settles O18: each thing that a command can do recomputes the codes whose inputs it changes. -/
theorem codesStayCurrent : Obligations.CodesStayCurrent := fun _ _ _ h k => h.change (exec_change k)

end Sys2Proof.Machine
end

section
/-!
The calibration of OWNED channels (R17): their slots and the curves in them stand under every command.
-/
namespace Sys2Proof.Machine

/-- No channel's slot and no curve differ. -/
def SameSlots (s t : State) : Prop := (∀ c : ChannelNo, t.channels[c].slot = s.channels[c].slot) ∧ t.curves = s.curves

/-- The channel's slot and the curve in it stand. -/
def SlotFixed (ch : ChannelNo) (s t : State) : Prop :=
  t.channels[ch].slot = s.channels[ch].slot ∧ t.curveAt s.channels[ch].slot = s.curveAt s.channels[ch].slot

namespace SameSlots

variable {s t u : State}

theorem of_fields (channels : t.channels = s.channels) (curves : t.curves = s.curves) : SameSlots s t :=
  ⟨fun c => by rw [channels], curves⟩

theorem trans (h : SameSlots s t) (k : SameSlots t u) : SameSlots s u :=
  ⟨fun c => (k.1 c).trans (h.1 c), k.2.trans h.2⟩

theorem of_cueWork (h : SameCalibration s t) (frame : CueWork s t) : SameSlots s t := ⟨fun c => (h c).1, frame.curves⟩

theorem mapChannels (s : State) (f : ChannelNo → Channel → Channel) (hf : ∀ c ch, (f c ch).slot = ch.slot) :
    SameSlots s (s.mapChannels f) :=
  ⟨fun c => by rw [State.mapChannels_channels, hf], State.mapChannels_curves s f⟩

theorem mapActive (s : State) (f : Instance → Instance) : SameSlots s (s.mapActive f) := of_fields (by simp) (by simp)

theorem mapSelected (s : State) (mask : Half) (f : Channel → Channel) (hf : ∀ ch, (f ch).slot = ch.slot) :
    SameSlots s (s.mapSelected mask f) :=
  mapChannels s _ fun c ch => by split <;> [exact hf ch; rfl]

theorem recode (s : State) (p : Channel → Bool) : SameSlots s (s.recode p) :=
  mapChannels s _ fun c ch => by split <;> rfl

theorem slotFixed (h : SameSlots s t) (ch : ChannelNo) : SlotFixed ch s t :=
  ⟨h.1 ch, by simp only [State.curveAt, h.2]⟩

theorem setLevel (s : State) (mask : Half) (level : Nat) : SameSlots s (Machine.setLevel mask level s).1 := by
  rw [setLevel_state]
  have written : SameSlots s (s.levelled mask level) := mapSelected s mask _ fun _ => rfl
  refine trans (written.trans (mapActive _ _)) (of_cueWork (SameCalibration.sweep _) (CueWork.sweep _))

theorem trimSet (s : State) (mask : Half) (trim : Int) : SameSlots s (Machine.trimSet mask trim s).1 := by
  rw [trimSet_state]
  refine mapSelected s mask _ fun ch => ?_
  unfold State.withOverride
  split <;> rfl

theorem trimSource (s : State) (mask : Half) (x : TrimSource) : SameSlots s (setTrimSource mask x s).1 := by
  rw [setTrimSource_state]
  exact mapSelected s mask _ fun _ => rfl

theorem applyTrims (s : State) (v : Vector Int 16) : SameSlots s (s.applyTrims v) := by
  have written : SameSlots s (s.writeTrims v) := mapChannels s _ fun _ _ => rfl
  exact written.trans (recode _ _)

theorem writeClass (s : State) (p : RunProfile) (k : Fin 6) : SameSlots s (s.writeClass p k) :=
  of_fields (by simp) (by cases p <;> rfl)

theorem endProgram (s : State) (p : Program) (o : ReadBack) : SameSlots s (s.endProgram p o) := by
  have after : ∀ u : State, SameSlots u (u.afterProgram p o) := by
    intro u
    unfold State.afterProgram
    split
    · split
      · exact applyTrims u _
      · exact of_fields rfl rfl
    · exact of_fields rfl rfl
  have reported : SameSlots s ((s.settleProgram p o).report (.programDone p.snapshot.kind p.generation o)) :=
    of_fields (by simp [State.settleProgram]) (by simp [State.settleProgram])
  exact (reported.trans (after _)).trans (of_fields rfl rfl)

end SameSlots

/-- While a channel is OWNED no request changes its slot or the curve in it (R11, R15, R111). -/
theorem slotFixed_of_effect {s t : State} {ch : ChannelNo} (owned : s.channels[ch].owned = true) (k : RequestEffect s t) :
    SlotFixed ch s t := by
  cases k with
  | curveWrite k c _ hk free =>
    have other : s.channels[ch].slot ≠ k := fun e =>
      Bool.eq_false_iff.1 free ((s.ownedOn_iff _).2 ⟨ch, owned, decide_eq_true e⟩)
    have recoded := SameSlots.recode (s.setCurve k c) fun ch => decide (ch.slot = k)
    rw [State.writeCurve_eq]
    exact ⟨recoded.1 ch, (recoded.slotFixed ch).2.trans (s.curveAt_setCurve_of_ne c hk other)⟩
  | bind mask k free =>
    have passed : selects mask ch ≠ true := fun e => Bool.eq_false_iff.1 free ((s.ownedIn_iff mask).2 ⟨ch, e, owned⟩)
    rw [State.mapSelected_eq_mapChannels]
    exact ⟨by rw [State.mapChannels_channels, if_neg passed], by simp only [State.curveAt, State.mapChannels_curves]⟩
  | loadCurves _ free =>
    have fixed : s.channels[ch].slot = 0 := by
      by_contra bound
      exact Bool.eq_false_iff.1 free ((s.ownedOn_iff _).2 ⟨ch, owned, decide_eq_true bound⟩)
    rw [State.applyCurves_eq]
    exact ⟨(SameSlots.recode (s.setCurves s.loadedCurves) _).1 ch, by rw [fixed, State.curveAt_zero, State.curveAt_zero]⟩
  | nothing => exact ⟨rfl, rfl⟩
  | fetch m => exact ⟨rfl, rfl⟩
  | restart => exact ⟨rfl, rfl⟩
  | setProfile p =>
    have written : SameSlots s { s with profile := p, heldFrom := s.heldFromAfter p } := ⟨fun _ => rfl, rfl⟩
    exact (written.trans (SameSlots.recode _ _)).slotFixed ch
  | setCeilingInForce p k => exact ((SameSlots.writeClass s p k).trans (SameSlots.recode _ _)).slotFixed ch
  | setCeilingAside p k => exact (SameSlots.writeClass s p k).slotFixed ch
  | trimSet mask trim => exact (SameSlots.trimSet s mask trim).slotFixed ch
  | trimSource mask x => exact (SameSlots.trimSource s mask x).slotFixed ch
  | setLevel mask level => exact (SameSlots.setLevel s mask level).slotFixed ch
  | cueLoad c r => exact ⟨rfl, rfl⟩
  | cueClear c => exact ⟨rfl, rfl⟩
  | cueGo c r => exact (SameSlots.of_cueWork (SameCalibration.startCue s c .request r) (CueWork.startCue s c .request r)).slotFixed ch
  | cueArm c m => exact ⟨rfl, rfl⟩
  | cueDisarm => exact ⟨rfl, rfl⟩
  | cueStop i => exact (SameSlots.of_cueWork (SameCalibration.stopInstance s i) (CueWork.stopInstance s i)).slotFixed ch
  | cueStopAll =>
    have stopped := SameCalibration.foldl SameCalibration.stopInstance s.active s
    have cleared := stopped.trans (u := (s.active.foldl State.stopInstance s).clearFollows) (.of_channels rfl)
    exact (SameSlots.of_cueWork cleared (CueWork.stopAll s)).slotFixed ch
  | storeProgram k g fade p => exact ⟨rfl, rfl⟩
  | loadTrims => exact (SameSlots.applyTrims s _).slotFixed ch
  | loadLabel => exact ⟨rfl, rfl⟩
  | replay x => exact (SameSlots.of_cueWork (SameCalibration.launch s _) (CueWork.launch s _)).slotFixed ch
  | labelSet v => exact ⟨rfl, rfl⟩

/-- In the START phase no channel is OWNED (R42, R128). -/
theorem EngineSound.free_in_start {s : State} (h : EngineSound s) (hp : s.phase = .start) (c : ChannelNo) :
    s.channels[c].owned = false := by
  obtain ⟨noneActive, -⟩ := h.startQuiet hp
  cases ho : s.channels[c].owner with
  | none => rw [Channel.owned, ho]; rfl
  | some id =>
    obtain ⟨i, hi, -⟩ := (h.ownership c id).1 ho
    rw [noneActive] at hi
    cases hi

theorem slotFixed_of_change {s t : State} {ch : ChannelNo} (sound : EngineSound s) (before : s.channels[ch].owned = true)
    (after : t.channels[ch].owned = true) (k : Change s t) : SlotFixed ch s t := by
  have same (h : t.channels = s.channels) (h' : t.curves = s.curves) : SlotFixed ch s t := (SameSlots.of_fields h h').slotFixed ch
  cases k with
  | executes k q p => 
    obtain ⟨slot, curve⟩ := slotFixed_of_effect before (handlerOf_effect k p s)
    exact ⟨slot, curve⟩
  | load hp =>
    rw [sound.free_in_start hp ch] at before
    cases before
  | base cause rate =>
    have free : (s.base cause rate).channels[ch] = baseChannel := by simp [State.base, State.reset]
    rw [free] at after
    cases after
  | expiry =>
    have ticked : SameSlots s s.tick := .of_fields rfl rfl
    have worked : SameSlots s.tick s.expiry :=
      .of_cueWork ((SameCalibration.cueWork _).trans (SameCalibration.serve _ _)) (CueWork.expiry s)
    exact (ticked.trans worked).slotFixed ch
  | takeEdge =>
    have fired : ∀ a : Armed, SameSlots s (s.markEdge.startReported a.cue .goLine) := fun a =>
      SameSlots.trans (t := s.markEdge) (.of_fields rfl rfl)
        (.of_cueWork (SameCalibration.startReported _ _ _) (CueWork.startReported _ _ _))
    unfold State.takeEdge
    split
    · exact ⟨rfl, rfl⟩
    · rename_i a _
      unfold State.fire
      split
      · exact ((fired a).trans (u := State.setArmed _ _) (.of_fields rfl rfl)).slotFixed ch
      · exact (fired a).slotFixed ch
  | endProgram p o => exact (SameSlots.endProgram s p o).slotFixed ch
  | nothing => exact ⟨rfl, rfl⟩
  | receives r => exact ⟨rfl, rfl⟩
  | answers f => exact same (by simp) (by simp)
  | resetCondition c => exact same (by simp) (by unfold State.cutProgram; split <;> rfl)
  | oe l => exact ⟨rfl, rfl⟩
  | timeout => exact same (by simp) (by simp)
  | endSending x => exact same (by simp) (SameShared.endSending s x).1
  | resetLink t => exact same (by simp [State.resetLink]) (by simp [State.resetLink])
  | fallsHeld => exact ⟨rfl, rfl⟩
  | fallsIdle => exact ⟨rfl, rfl⟩
  | fallsAgain => exact ⟨rfl, rfl⟩
  | risesHeld => exact ⟨rfl, rfl⟩
  | rises => exact ⟨rfl, rfl⟩

/-- Settles O15: what may rebind a channel or write its curve is refused while the channel is OWNED, and load completion finds no
channel OWNED. -/
theorem ownedCalibrationIsFixed : Obligations.OwnedCalibrationIsFixed := fun _ _ _ _ sound k before after =>
  slotFixed_of_change sound before after (exec_change k)

end Sys2Proof.Machine
end

section
/-!
The level of a fade (R47): it moves monotonically from the start level to the target and never past it.
-/
namespace Sys2Proof.Machine

/-- The level of a fade at step `k` of `n`, before it is read as a natural number. -/
def fadeAt (start target k n : Nat) : Int := (start : Int) + Int.tdiv (((target : Int) - start) * k) n

theorem fadeLevel_eq (start target k n : Nat) : fadeLevel start target k n = (fadeAt start target k n).toNat := rfl

/-- A rising fade adds the whole part of its share of the way. -/
theorem fadeAt_up {start target : Nat} (h : start ≤ target) (k n : Nat) :
    fadeAt start target k n = ((start + (target - start) * k / n : Nat) : Int) := by
  obtain ⟨d, rfl⟩ := Nat.exists_eq_add_of_le h
  simp only [fadeAt, Nat.add_sub_cancel_left]
  push_cast
  rw [add_sub_cancel_left, Int.tdiv_eq_ediv_of_nonneg (by positivity)]

/-- A falling fade takes away the whole part of its share of the way. -/
theorem fadeAt_down {start target : Nat} (h : target ≤ start) (k n : Nat) :
    fadeAt start target k n = (start : Int) - ((start - target) * k / n : Nat) := by
  obtain ⟨d, rfl⟩ := Nat.exists_eq_add_of_le h
  simp only [fadeAt, Nat.add_sub_cancel_left]
  push_cast
  rw [show ((target : Int) - (target + d)) * k = -(d * k) by ring, Int.neg_tdiv, Int.tdiv_eq_ediv_of_nonneg (by positivity)]
  ring

/-- The share of the way never passes the whole. -/
theorem share_le {d k n : Nat} (hk : k ≤ n) : d * k / n ≤ d := by
  rcases Nat.eq_zero_or_pos n with rfl | hn
  · simp
  · exact Nat.div_le_of_le_mul (by rw [Nat.mul_comm n d]; exact Nat.mul_le_mul_left d hk)

theorem share_mono (d k n : Nat) : d * k / n ≤ d * (k + 1) / n :=
  Nat.div_le_div_right (Nat.mul_le_mul_left d (Nat.le_succ k))

theorem fadeAt_last (start target : Nat) {n : Nat} (hn : 0 < n) : fadeAt start target n n = target := by
  rw [fadeAt, Int.mul_tdiv_cancel _ (by omega)]
  ring

/-- A rising fade rises from step to step and stays between start level and target. -/
theorem fadeAt_rises {start target k n : Nat} (h : start ≤ target) (hk : k < n) :
    (start : Int) ≤ fadeAt start target k n ∧ fadeAt start target k n ≤ fadeAt start target (k + 1) n ∧
      fadeAt start target (k + 1) n ≤ target := by
  rw [fadeAt_up h, fadeAt_up h]
  have mono := share_mono (target - start) k n
  have bound : (target - start) * (k + 1) / n ≤ target - start := share_le hk
  generalize (target - start) * k / n = now at *
  generalize (target - start) * (k + 1) / n = next at *
  omega

/-- A falling fade falls from step to step and stays between target and start level. -/
theorem fadeAt_falls {start target k n : Nat} (h : target ≤ start) (hk : k < n) :
    (target : Int) ≤ fadeAt start target (k + 1) n ∧ fadeAt start target (k + 1) n ≤ fadeAt start target k n ∧
      fadeAt start target k n ≤ start := by
  rw [fadeAt_down h, fadeAt_down h]
  have mono := share_mono (start - target) k n
  have bound : (start - target) * (k + 1) / n ≤ start - target := share_le hk
  generalize (start - target) * k / n = now at *
  generalize (start - target) * (k + 1) / n = next at *
  omega

/-- A fade between levels in range stays in range. -/
theorem fadeLevel_le {start target k n bound : Nat} (hs : start ≤ bound) (ht : target ≤ bound) (hk : k < n) :
    fadeLevel start target (k + 1) n ≤ bound := by
  rw [fadeLevel_eq, Int.toNat_le]
  rcases le_total start target with h | h
  · have := (fadeAt_rises h hk).2.2
    omega
  · have := (fadeAt_falls h hk).2
    omega

end Sys2Proof.Machine
end

section
/-!
The step of the fades (R46, R47): the one FADING entry of a channel, and what its step writes.
-/
namespace Sys2Proof.Machine

theorem EntryCopy.isFading_iff (e : EntryCopy) : e.isFading = true ↔ ∃ start step, e.state = .fading start step := by
  unfold EntryCopy.isFading
  cases e.state <;> simp

theorem Instance.fades_iff (i : Instance) (c : ChannelNo) :
    i.fades c = true ↔ ∃ e ∈ i.entries, e.entry.channel = c ∧ ∃ start step, e.state = .fading start step := by
  simp [Instance.fades, EntryCopy.isFading_iff]

/-- What the search for a channel's FADING entry reads from one entry. -/
theorem fading_read_iff {e : EntryCopy} {c : ChannelNo} {x : CueEntry × Nat × Nat} :
    (match e.state with
      | .fading start step => if e.entry.channel = c then some (e.entry, start, step) else none
      | _ => none) = some x ↔ e.entry.channel = c ∧ e.entry = x.1 ∧ e.state = .fading x.2.1 x.2.2 := by
  obtain ⟨x, start, step⟩ := x
  cases e.state <;> simp

/-- The entry that is found for a channel is a FADING entry of an instance of the list. -/
theorem fadingOn_some {active : List Instance} {c : ChannelNo} {x : CueEntry} {start step : Nat}
    (h : fadingOn active c = some (x, start, step)) :
    ∃ i ∈ active, ∃ e ∈ i.entries, e.entry.channel = c ∧ e.entry = x ∧ e.state = .fading start step := by
  obtain ⟨i, hi, h⟩ := List.exists_of_findSome?_eq_some h
  obtain ⟨e, he, h⟩ := List.exists_of_findSome?_eq_some h
  exact ⟨i, hi, e, he, fading_read_iff.1 h⟩

/-- Where none is found, no instance fades the channel. -/
theorem fadingOn_none {active : List Instance} {c : ChannelNo} (h : fadingOn active c = none) {i : Instance} (hi : i ∈ active)
    {e : EntryCopy} (he : e ∈ i.entries) (hc : e.entry.channel = c) (start step : Nat) : e.state ≠ .fading start step := by
  intro hs
  have notRead := List.findSome?_eq_none_iff.1 (List.findSome?_eq_none_iff.1 h i hi) e he
  simp [hs, hc] at notRead

namespace EngineSound

variable {s : State}

/-- The owner of a channel under a FADING entry is the entry's instance (R42). -/
theorem owner_of_fading (sound : EngineSound s) {i : Instance} {e : EntryCopy} {c : ChannelNo} {start step : Nat}
    (hi : i ∈ s.active) (he : e ∈ i.entries) (hc : e.entry.channel = c) (hs : e.state = .fading start step) :
    s.channels[c].owner = some i.id :=
  (sound.ownership _ _).2 ⟨i, hi, rfl, (i.fades_iff _).2 ⟨e, he, hc, start, step, hs⟩⟩

/-- A channel has one FADING entry at most (R42, R24, R35). -/
theorem fading_unique (sound : EngineSound s) {i i' : Instance} {e e' : EntryCopy} {start step start' step' : Nat}
    (hi : i ∈ s.active) (hi' : i' ∈ s.active) (he : e ∈ i.entries) (he' : e' ∈ i'.entries)
    (hs : e.state = .fading start step) (hs' : e'.state = .fading start' step')
    (hc : e'.entry.channel = e.entry.channel) : e' = e := by
  have owner := sound.owner_of_fading hi he rfl hs
  have owner' := sound.owner_of_fading hi' he' hc hs'
  have sameId : i'.id = i.id := Option.some.inj (owner'.symm.trans owner)
  obtain rfl := List.inj_on_of_nodup_map sound.idsDistinct hi' hi sameId
  exact List.inj_on_of_nodup_map (sound.instancesShaped _ hi).2.2 he' he hc

/-- The search for a channel's FADING entry finds it. -/
theorem fadingOn_eq (sound : EngineSound s) {i : Instance} {e : EntryCopy} {start step : Nat} (hi : i ∈ s.active)
    (he : e ∈ i.entries) (hs : e.state = .fading start step) :
    fadingOn s.active e.entry.channel = some (e.entry, start, step) := by
  cases h : fadingOn s.active e.entry.channel with
  | none => exact absurd hs (fadingOn_none h hi he rfl start step)
  | some x =>
    obtain ⟨x, start', step'⟩ := x
    obtain ⟨i', hi', e', he', hc, rfl, hs'⟩ := fadingOn_some h
    obtain rfl := sound.fading_unique hi hi' he he' hs hs' hc
    rw [hs] at hs'
    injection hs' with h1 h2
    rw [h1, h2]

/-- Nothing fades a FREE channel (R42). -/
theorem fadingOn_free (sound : EngineSound s) {c : ChannelNo} (free : s.channels[c].owner = none) : fadingOn s.active c = none := by
  cases h : fadingOn s.active c with
  | none => rfl
  | some x =>
    obtain ⟨x, start, step⟩ := x
    obtain ⟨i, hi, e, he, hc, -, hs⟩ := fadingOn_some h
    rw [sound.owner_of_fading hi he hc hs] at free
    cases free

end EngineSound

@[simp] theorem State.stepFades_channels (s : State) (c : ChannelNo) :
    s.stepFades.channels[c] = s.stepChannel c s.channels[c] := by
  have unmoved : s.stepFades.channels = (s.mapChannels s.stepChannel).channels := by
    rw [State.stepFades, State.mapActive_channels]
  rw [unmoved, State.mapChannels_channels]

theorem State.stepFades_active (s : State) :
    s.stepFades.active = s.active.map fun i => { i with entries := i.entries.map EntryCopy.stepped } := by
  rw [State.stepFades, State.mapActive_active, State.mapChannels_active]

theorem State.stepChannel_fading {s : State} {c : ChannelNo} {x : CueEntry} {start step : Nat}
    (h : fadingOn s.active c = some (x, start, step)) (ch : Channel) :
    s.stepChannel c ch = s.recoded { ch with
      level := fadeLevel start x.target (step + 1) x.fade
      owner := if x.fade ≤ step + 1 then none else ch.owner } := by
  unfold State.stepChannel
  rw [h]

theorem State.stepChannel_none {s : State} {c : ChannelNo} (h : fadingOn s.active c = none) (ch : Channel) :
    s.stepChannel c ch = ch := by
  unfold State.stepChannel
  rw [h]

theorem EntryCopy.stepped_fading {e : EntryCopy} {start step : Nat} (h : e.state = .fading start step) :
    e.stepped = { e with state := if e.entry.fade ≤ step + 1 then .done else .fading start (step + 1) } := by
  unfold EntryCopy.stepped
  rw [h]

/-- The owner of a channel enters no drive code. -/
theorem State.recoded_owner (s : State) (ch : Channel) (o : Option Byte) :
    s.recoded { ch with owner := o } = { ch with owner := o, driveCode := s.codeOf ch } := by
  simp only [State.recoded, s.codeOf_congr (a := { ch with owner := o }) (b := ch) rfl rfl rfl]

/-- Settles O38: by the one FADING entry of the channel, and the bounds on the level of a fade. -/
theorem fadeStepFollowsR47 : Obligations.FadeStepFollowsR47 := by
  refine ⟨?_, ?_, State.stepFades_active, ?_⟩
  · intro s i e start step sound hi he hs hstep
    have found := sound.fadingOn_eq hi he hs
    have spelled : ((start : Int) + Int.tdiv (((e.entry.target : Int) - start) * (step + 1)) e.entry.fade).toNat =
        fadeLevel start e.entry.target (step + 1) e.entry.fade := by
      simp only [fadeLevel_eq, fadeAt, Nat.cast_add, Nat.cast_one]
    dsimp only
    rw [spelled, State.stepFades_channels, State.stepChannel_fading found, EntryCopy.stepped_fading hs]
    constructor
    · intro going
      have notLast : ¬ e.entry.fade ≤ step + 1 := by omega
      simp only [notLast, if_false]
      exact ⟨rfl, trivial⟩
    · intro last
      have isLast : e.entry.fade ≤ step + 1 := by omega
      simp only [isLast, if_true]
      refine ⟨?_, State.recoded_owner s { s.channels[e.entry.channel] with level := _ } none, trivial⟩
      rw [last, fadeLevel_eq, fadeAt_last _ _ (by omega), Int.toNat_natCast]
  · intro s c sound free
    rw [State.stepFades_channels, State.stepChannel_none (sound.fadingOn_free free)]
  · intro start target k n hk
    exact ⟨fun h => fadeAt_rises h hk, fun h => fadeAt_falls h hk⟩

end Sys2Proof.Machine
end

section
/-!
What the steps of the Cue Engine keep: the shape of the Active List and of the cue records (`CueShape`), and the ranges of levels and
entry copies.
-/
namespace Sys2Proof.Machine

/-! ## The shape of lists and records -/

/-- No two instances share an id (R35), and no two entries of an instance or of a cue record name one channel (R24). -/
structure CueShape (s : State) : Prop where
  ids : ((roster s.active).map Prod.fst).Nodup
  copies : ∀ p ∈ roster s.active, (p.2.map CueEntry.channel).Nodup
  records : ∀ c : CueIdx, ∀ r ∈ s.cues[c], (r.entries.map CueEntry.channel).Nodup

theorem EngineSound.cueShape {s : State} (h : EngineSound s) : CueShape s where
  ids := by simpa [roster, Function.comp_def] using h.idsDistinct
  copies := by
    intro p hp
    obtain ⟨i, hi, rfl⟩ := List.mem_map.1 hp
    simpa [Function.comp_def] using (h.instancesShaped i hi).2.2
  records := fun c r hr => (h.recordsShaped c r hr).2.2

theorem roster_join (s : State) (i : Instance) :
    roster (s.join i).active = roster s.active ++ [(i.id, i.entries.map EntryCopy.entry)] := by
  simp [roster]

theorem mem_ids_roster {active : List Instance} {id : Byte} : id ∈ (roster active).map Prod.fst ↔ idHeld active id = true := by
  simp [roster, idHeld]

/-- The entries of the start-up instance name the sixteen channels, each once (R41). -/
theorem sceneEntries_channels (x : Scene) : (sceneEntries x).map CueEntry.channel = List.finRange 16 := by
  simp [sceneEntries, Function.comp_def]

theorem entries_newInstance (id : Byte) (c : CueIdx) (source : StartSource) (r : CueRecord) :
    (newInstance id c source r).entries.map EntryCopy.entry = r.entries := by
  simp [newInstance, waitingCopy, Function.comp_def]

theorem entries_sceneInstance (x : Scene) : (sceneInstance x).entries.map EntryCopy.entry = sceneEntries x := by
  simp [sceneInstance, waitingCopy, Function.comp_def]

/-- What joins the list is WAITING (R37). -/
theorem JoinsAs.waiting {s : State} {i : Instance} (h : JoinsAs s i) : ∀ x ∈ i.entries, x.state = .waiting := by
  have copies : ∀ es : List CueEntry, ∀ x ∈ es.map waitingCopy, x.state = .waiting := by
    intro es x hx
    obtain ⟨e, -, rfl⟩ := List.mem_map.1 hx
    rfl
  rcases h with ⟨c, source, r, -, e⟩ | ⟨x, -, rfl⟩
  · rw [e]
    exact copies r.entries
  · exact copies (sceneEntries x)

namespace CueShape

variable {s t : State}

/-- The shape rests on the roster and the cue records alone. -/
theorem congr (h : CueShape s) (same : roster t.active = roster s.active) (cues : t.cues = s.cues) : CueShape t where
  ids := by rw [same]; exact h.ids
  copies := by rw [same]; exact h.copies
  records := by rw [cues]; exact h.records

theorem join (h : CueShape s) {i : Instance} (fresh : idHeld s.active i.id = false) (joins : JoinsAs s i) : CueShape (s.join i) where
  ids := by
    rw [roster_join, List.map_append, List.nodup_append]
    refine ⟨h.ids, by simp, fun id hid id' hid' e => ?_⟩
    obtain rfl : id' = i.id := by simpa using hid'
    rw [e, mem_ids_roster, fresh] at hid
    cases hid
  copies := by
    intro p hp
    rw [roster_join, List.mem_append, List.mem_singleton] at hp
    rcases hp with hp | rfl
    · exact h.copies p hp
    · rcases joins with ⟨c, source, r, hr, e⟩ | ⟨x, -, rfl⟩
      · rw [e, entries_newInstance]
        exact h.records c r hr
      · rw [entries_sceneInstance, sceneEntries_channels]
        exact List.nodup_finRange 16
  records := h.records

theorem step (h : CueShape s) (k : CueStep s t) : CueShape t := by
  cases k with
  | quiet frame _ active => exact h.congr (by rw [active]) frame.cues
  | join i fresh joins => exact h.join fresh joins
  | start id e => exact h.congr (roster_startEntry s id e) (CueWork.startEntry s id e).cues
  | stepFades =>
    refine h.congr ?_ (CueStep.stepFades (s := s)).cueWork.cues
    have keeps : ∀ x : EntryCopy, x.stepped.entry = x.entry := fun x => by
      unfold EntryCopy.stepped
      split <;> rfl
    rw [State.stepFades_active]
    simp [roster, Function.comp_def, keeps]
  | restate f ends => exact h.congr (ends.roster_eq _) (by simp)
  | leave p =>
    have fewer : List.Sublist (roster (s.active.filter p)) (roster s.active) := List.filter_sublist.map _
    exact ⟨h.ids.sublist (fewer.map _), fun q hq => h.copies q (fewer.subset hq), h.records⟩
  | release i => exact h.congr (by rw [State.releaseFades, State.mapChannels_active]) (by simp [State.releaseFades])

theorem steps (h : CueShape s) (k : CueSteps s t) : CueShape t := k.keeps step h

/-- An entry of an instance is, of the copies with the instance's id, the one for its channel (R24, R35). -/
theorem entry_unique (h : CueShape s) {id : Byte} {e : CueEntry} (holds : HoldsEntry s.active id e) {i : Instance}
    (hi : i ∈ s.active) (hid : i.id = id) {x : EntryCopy} (hx : x ∈ i.entries) (hc : x.entry.channel = e.channel) : x.entry = e := by
  obtain ⟨es, hes, he⟩ := holds
  have mine : (i.id, i.entries.map EntryCopy.entry) ∈ roster s.active := List.mem_map_of_mem hi
  have sameEntries : i.entries.map EntryCopy.entry = es :=
    congrArg Prod.snd (List.inj_on_of_nodup_map h.ids mine hes hid)
  have mem : x.entry ∈ es := sameEntries ▸ List.mem_map_of_mem hx
  exact List.inj_on_of_nodup_map (h.copies _ hes) mem he hc

end CueShape

/-! ## Ranges -/

theorem copyInRange_iff (x : EntryCopy) :
    CopyInRange x ↔ EntryInRange x.entry ∧ ∀ start step, x.state = .fading start step → start ≤ 1000 ∧ step < x.entry.fade := by
  unfold CopyInRange
  cases x.state <;> simp

/-- A copy that holds the entry of one in range, and no FADING state of its own, is in range. -/
theorem CopyInRange.restate {x y : EntryCopy} (h : CopyInRange x) (entry : y.entry = x.entry)
    (state : y.state = x.state ∨ y.isFading = false) : CopyInRange y := by
  rw [copyInRange_iff] at h ⊢
  rw [entry]
  refine ⟨h.1, fun start step hs => ?_⟩
  rcases state with same | ended
  · exact h.2 start step (same ▸ hs)
  · rw [EntryCopy.isFading, hs] at ended
    cases ended

/-- A step of a fade leaves its copy in range: at its final step the fade is over (R47). -/
theorem CopyInRange.stepped {x : EntryCopy} (h : CopyInRange x) : CopyInRange x.stepped := by
  cases hs : x.state with
  | fading start step =>
    rw [EntryCopy.stepped_fading hs]
    rw [copyInRange_iff] at h ⊢
    refine ⟨h.1, fun start' step' hs' => ?_⟩
    dsimp only at hs'
    split at hs'
    · cases hs'
    · cases hs'
      exact ⟨(h.2 _ _ hs).1, by dsimp only; omega⟩
  | waiting | done | taken | overridden | cut =>
    have stands : x.stepped = x := by
      unfold EntryCopy.stepped
      rw [hs]
    rw [stands]
    exact h

theorem SameCalibration.of_steps {s t : State} (k : CueSteps s t) : SameCalibration s t := by
  refine k.keeps (P := SameCalibration s) (fun {u v} h step => h.trans ?_) (.of_channels rfl)
  cases step with
  | quiet _ channels => exact .of_channels channels
  | join i => exact .of_channels rfl
  | start id e => exact .startEntry u id e
  | stepFades =>
    intro c
    rw [State.stepFades_channels]
    unfold State.stepChannel
    split <;> exact ⟨rfl, rfl, rfl, rfl⟩
  | restate f => exact .of_channels rfl
  | leave p => exact .of_channels rfl
  | release i => exact .mapChannels _ fun c ch => by split <;> exact ⟨rfl, rfl, rfl, rfl⟩

/-- An entry's start leaves a channel's level, or writes the entry's target (R43). -/
theorem State.startEntry_level (s : State) (id : Byte) (e : CueEntry) (c : ChannelNo) :
    (s.startEntry id e).channels[c].level = s.channels[c].level ∨ (s.startEntry id e).channels[c].level = e.target := by
  unfold State.startEntry
  split
  · exact .inl rfl
  · split
    · rw [State.writeLevel_eq_mapChannels, State.mapChannels_channels]
      split
      · exact .inr rfl
      · exact .inl rfl
    · rw [State.writeOwner_eq_mapChannels, State.mapChannels_channels]
      split <;> exact .inl rfl

theorem endsEntries_setEntry (id : Byte) (c : ChannelNo) {out : EntryState} (h : ∀ a b, out ≠ .fading a b) :
    EndsEntries fun i => if i.id = id then i.setEntry c out else i := by
  intro i
  by_cases hid : i.id = id
  · refine ⟨by simp [hid, Instance.setEntry], fun x => if x.entry.channel = c then { x with state := out } else x,
      by simp [hid, Instance.setEntry], fun x => ?_⟩
    dsimp only
    split
    · refine ⟨rfl, .inr ?_⟩
      cases out <;> simp_all [EntryCopy.isFading]
    · exact ⟨rfl, .inl rfl⟩
  · exact ⟨by simp [hid], fun x => x, by simp [hid], fun x => ⟨rfl, .inl rfl⟩⟩

/-- The copies of the Active List lie in their ranges. -/
def CopiesInRange (active : List Instance) : Prop := ∀ i ∈ active, ∀ x ∈ i.entries, CopyInRange x

theorem CopiesInRange.restate {l : List Instance} (h : CopiesInRange l) {f : Instance → Instance} (ends : EndsEntries f) :
    CopiesInRange (l.map f) := by
  intro j hj x hx
  obtain ⟨i, hi, rfl⟩ := List.mem_map.1 hj
  obtain ⟨-, g, hg, keeps⟩ := ends i
  rw [hg] at hx
  obtain ⟨y, hy, rfl⟩ := List.mem_map.1 hx
  exact (h i hi y hy).restate (keeps y).1 (keeps y).2

/-- A fade begins at step 0 of an entry whose fade time is above 0 (R43). -/
theorem CopiesInRange.beginFade {s : State} (h : CopiesInRange s.active) (shape : CueShape s) {id : Byte} {e : CueEntry}
    (holds : HoldsEntry s.active id e) (fades : e.fade ≠ 0) {level : Nat} (hl : level ≤ 1000) :
    CopiesInRange (s.setEntry id e.channel (.fading level 0)).active := by
  intro j hj x hx
  rw [State.setEntry_eq_mapActive, State.mapActive_active] at hj
  obtain ⟨i, hi, rfl⟩ := List.mem_map.1 hj
  split at hx
  · rename_i hid
    obtain ⟨y, hy, rfl⟩ := List.mem_map.1 hx
    split
    · rename_i hc
      have same := shape.entry_unique holds hi hid hy hc
      refine (copyInRange_iff _).2 ⟨((copyInRange_iff y).1 (h i hi y hy)).1, fun start step hs => ?_⟩
      cases hs
      exact ⟨hl, by rw [same]; omega⟩
    · exact h i hi y hy
  · exact h i hi x hx

/-- The entries of an entry's start stay in range (R43). -/
theorem CopiesInRange.startEntry {s : State} (h : CopiesInRange s.active) (shape : CueShape s) {id : Byte} {e : CueEntry}
    (holds : HoldsEntry s.active id e) (hl : s.channels[e.channel].level ≤ 1000) :
    CopiesInRange (s.startEntry id e).active := by
  have takes : EndsEntries fun i => i.endFades (fun c' => decide (c' = e.channel)) .taken := endsEntries_endFades _ (by simp)
  have taken : CopiesInRange (s.takeOver e.channel).active := h.restate takes
  unfold State.startEntry
  split
  · exact h.restate (endsEntries_setEntry id e.channel (by simp))
  · split
    · exact taken.restate (endsEntries_setEntry id e.channel (by simp))
    · rename_i fades
      have sameRoster : roster (s.takeOver e.channel).active = roster s.active := takes.roster_eq _
      refine CopiesInRange.beginFade (s := s.takeOver e.channel) taken (shape.congr sameRoster rfl) ?_ fades hl
      unfold HoldsEntry
      rw [sameRoster]
      exact holds

theorem State.loadedScene_good {s : State} {x : Scene} (h : s.loadedScene = some x) :
    ∃ g : GenIdx, s.array.startup[g] = .good x := by
  obtain ⟨g, -, hg⟩ := Option.bind_eq_some_iff.1 h
  refine ⟨g, ?_⟩
  cases hp : s.array.startup[g] with
  | good y =>
    rw [hp] at hg
    cases hg
    rfl
  | blank => rw [hp] at hg; cases hg
  | bad => rw [hp] at hg; cases hg

theorem sceneEntries_inRange {x : Scene} (h : SceneInRange x) : ∀ e ∈ sceneEntries x, EntryInRange e := by
  intro e he
  obtain ⟨c, -, rfl⟩ := List.mem_map.1 he
  exact ⟨h.1 c, h.2, by simp⟩

namespace RangesHold

variable {s t : State}

theorem sceneInRange (h : RangesHold s) {x : Scene} (hx : s.loadedScene = some x) : SceneInRange x := by
  obtain ⟨g, hg⟩ := State.loadedScene_good hx
  have inRange := h.arrayStartup g
  rw [hg] at inRange
  exact inRange

/-- Cue work keeps the ranges where it keeps those of levels and copies. -/
theorem of_cueWork (h : RangesHold s) (frame : CueWork s t) (calibration : SameCalibration s t)
    (levels : ∀ c : ChannelNo, t.channels[c].level ≤ 1000) (copies : CopiesInRange t.active) : RangesHold t where
  levels := levels
  overrideTrims := fun c => by rw [(calibration c).2.2.1]; exact h.overrideTrims c
  storedTrims := fun c => by rw [(calibration c).2.2.2]; exact h.storedTrims c
  curves := by rw [frame.curves]; exact h.curves
  cues := by rw [frame.cues]; exact h.cues
  copies := copies
  arrayCurves := by rw [frame.array]; exact h.arrayCurves
  arrayTrims := by rw [frame.array]; exact h.arrayTrims
  arrayStartup := by rw [frame.array]; exact h.arrayStartup
  snapshot := by rw [frame.inFlight]; exact h.snapshot

theorem entryInRange (h : RangesHold s) {id : Byte} {e : CueEntry} (holds : HoldsEntry s.active id e) : EntryInRange e := by
  obtain ⟨es, hes, he⟩ := holds
  obtain ⟨i, hi, e'⟩ := List.mem_map.1 hes
  cases e'
  obtain ⟨x, hx, rfl⟩ := List.mem_map.1 he
  exact (h.copies i hi x hx).1

/-- The copies of a joining instance are those of a record in range, or of a scene in range. -/
theorem joins (h : RangesHold s) {i : Instance} (k : JoinsAs s i) : ∀ x ∈ i.entries, CopyInRange x := by
  have inRange : ∀ e ∈ i.entries.map EntryCopy.entry, EntryInRange e := by
    rcases k with ⟨c, source, r, hr, e⟩ | ⟨x, hx, rfl⟩
    · rw [e, entries_newInstance]
      exact h.cues c r hr
    · rw [entries_sceneInstance]
      exact sceneEntries_inRange (h.sceneInRange hx)
  intro x hx
  refine (copyInRange_iff x).2 ⟨inRange _ (List.mem_map_of_mem hx), fun start step hs => ?_⟩
  rw [k.waiting x hx] at hs
  cases hs

/-- The levels that the fades step to lie between levels in range (R47). -/
theorem stepFades_level (h : RangesHold s) (c : ChannelNo) : s.stepFades.channels[c].level ≤ 1000 := by
  rw [State.stepFades_channels]
  cases found : fadingOn s.active c with
  | none =>
    rw [State.stepChannel_none found]
    exact h.levels c
  | some x =>
    obtain ⟨x, start, step⟩ := x
    obtain ⟨i, hi, y, hy, -, rfl, hs⟩ := fadingOn_some found
    obtain ⟨⟨target, -⟩, fade⟩ := (copyInRange_iff y).1 (h.copies i hi y hy)
    rw [State.stepChannel_fading found]
    exact fadeLevel_le (fade _ _ hs).1 target (fade _ _ hs).2

theorem step (h : RangesHold s) (shape : CueShape s) (k : CueStep s t) : RangesHold t := by
  have rest := h.of_cueWork k.cueWork (.of_steps (.single k))
  cases k with
  | quiet _ channels active => exact rest (by rw [channels]; exact h.levels) (by rw [active]; exact h.copies)
  | join i _ k =>
    refine rest h.levels fun j hj => ?_
    rw [State.join_active, List.mem_append, List.mem_singleton] at hj
    rcases hj with hj | rfl
    · exact h.copies j hj
    · exact h.joins k
  | start id e holds =>
    refine rest (fun c => ?_) (CopiesInRange.startEntry h.copies shape holds (h.levels _))
    rcases s.startEntry_level id e c with same | target
    · rw [same]; exact h.levels c
    · rw [target]; exact (h.entryInRange holds).1
  | stepFades =>
    refine rest h.stepFades_level fun j hj x hx => ?_
    rw [State.stepFades_active] at hj
    obtain ⟨i, hi, rfl⟩ := List.mem_map.1 hj
    obtain ⟨y, hy, rfl⟩ := List.mem_map.1 hx
    exact (h.copies i hi y hy).stepped
  | restate f ends => exact rest h.levels (CopiesInRange.restate h.copies ends)
  | leave p => exact rest h.levels fun j hj => h.copies j (List.mem_filter.1 hj).1
  | release i =>
    refine rest (fun c => ?_) (by rw [State.releaseFades, State.mapChannels_active]; exact h.copies)
    rw [State.releaseFades, State.mapChannels_channels]
    split <;> exact h.levels c

theorem steps (h : RangesHold s) (shape : CueShape s) (k : CueSteps s t) : RangesHold t :=
  (k.keeps (P := fun u => CueShape u ∧ RangesHold u) (fun hu k => ⟨hu.1.step k, hu.2.step hu.1 k⟩) ⟨shape, h⟩).2

end RangesHold

end Sys2Proof.Machine
end

section
/-!
The ranges under every command (R1, R2, R3, R23, R37, R95).
-/
namespace Sys2Proof.Machine

/-! ## Ranges of channels, curves and retained content -/

/-- A channel's level and trims lie in their ranges (R1). -/
def ChannelInRange (ch : Channel) : Prop := ch.level ≤ 1000 ∧ TrimInRange ch.overrideTrim ∧ TrimInRange ch.storedTrim

/-- The content of the array lies in its ranges (R95). -/
structure ArrayInRange (a : RetainedArray) : Prop where
  curves : ∀ g : GenIdx, PlaceInRange a.curves[g] .curves
  trims : ∀ g : GenIdx, PlaceInRange a.trims[g] .trims
  startup : ∀ g : GenIdx, PlaceInRange a.startup[g] .startup

/-- The fields that the ranges read are the same. -/
def SameRanged (s t : State) : Prop :=
  t.channels = s.channels ∧ t.curves = s.curves ∧ t.cues = s.cues ∧ t.active = s.active ∧ t.array = s.array ∧
    t.inFlight = s.inFlight

theorem validCurve_linear : validCurve linearCurve = true := by decide

theorem trimInRange_zero : TrimInRange 0 := by unfold TrimInRange; decide

/-- A place of the four takes a value in range. -/
theorem placeInRange_set {α : Type} {wrap : α → Content} {v : Vector (Place α) 4} (h : ∀ g : GenIdx, PlaceInRange v[g] wrap)
    (g : GenIdx) {p : Place α} (hp : PlaceInRange p wrap) (g' : GenIdx) : PlaceInRange (v.set g p)[g'] wrap := by
  by_cases e : g.val = g'.val
  · simp [e, hp]
  · have other : (v.set g p)[g'] = v[g'] := by simp [e]
    rw [other]
    exact h g'

theorem ArrayInRange.putGood {a : RetainedArray} (h : ArrayInRange a) (g : GenIdx) {x : Content} (hx : ContentInRange x) :
    ArrayInRange (a.putGood g x) := by
  cases x with
  | curves c => exact ⟨placeInRange_set h.curves g hx, h.trims, h.startup⟩
  | trims t => exact ⟨h.curves, placeInRange_set h.trims g hx, h.startup⟩
  | startup x => exact ⟨h.curves, h.trims, placeInRange_set h.startup g hx⟩
  | label l => exact ⟨h.curves, h.trims, h.startup⟩

theorem ArrayInRange.putBad {a : RetainedArray} (h : ArrayInRange a) (g : GenIdx) (k : RecordKind) :
    ArrayInRange (a.putBad g k) := by
  cases k with
  | curves => exact ⟨placeInRange_set h.curves g trivial, h.trims, h.startup⟩
  | trims => exact ⟨h.curves, placeInRange_set h.trims g trivial, h.startup⟩
  | startup => exact ⟨h.curves, h.trims, placeInRange_set h.startup g trivial⟩
  | label => exact ⟨h.curves, h.trims, h.startup⟩

/-- A program leaves its generation GOOD with the snapshot or BAD (R96, R105). -/
theorem ArrayInRange.put {a : RetainedArray} (h : ArrayInRange a) {p : Program} (hp : ContentInRange p.snapshot) (o : ReadBack) :
    ArrayInRange (a.put p o) := by
  cases o with
  | good => exact h.putGood p.generation hp
  | bad => exact h.putBad p.generation p.snapshot.kind

theorem placeContent_eq_some {α : Type} {p : Place α} {x : α} (h : placeContent p = some x) : p = .good x := by
  cases p <;> simp_all [placeContent]

theorem recordedContent_inRange {α : Type} {wrap : α → Content} {v : Vector (Place α) 4} {m : Option GenIdx} {x : α}
    (h : ∀ g : GenIdx, PlaceInRange v[g] wrap) (hx : (m.bind fun g => placeContent v[g]) = some x) : ContentInRange (wrap x) := by
  obtain ⟨g, -, hg⟩ := Option.bind_eq_some_iff.1 hx
  have inRange := h g
  rw [placeContent_eq_some hg] at inRange
  exact inRange

/-! ### The lists and the cue records at load completion -/

@[simp] theorem State.loadArray_active (s : State) : s.loadArray.active = s.active := by
  simp [State.loadArray, State.recodeAll, State.recode, State.writeTrims, State.takeLoaded, State.readArray]

@[simp] theorem State.loadArray_cues (s : State) : s.loadArray.cues = s.cues := by
  simp [State.loadArray, State.recodeAll, State.recode, State.writeTrims, State.takeLoaded, State.readArray]

@[simp] theorem State.applyLoaded_active (s : State) : s.applyLoaded.active = s.active := by
  unfold State.applyLoaded
  split <;> simp [State.applyScene, State.recodeAll, State.recode, State.bindScene]

@[simp] theorem State.applyLoaded_cues (s : State) : s.applyLoaded.cues = s.cues := by
  unfold State.applyLoaded
  split <;> simp [State.applyScene, State.recodeAll, State.recode, State.bindScene]

/-! ## Ranges under the updates of the state -/

namespace RangesHold

variable {s t : State}

theorem channel (h : RangesHold s) (c : ChannelNo) : ChannelInRange s.channels[c] :=
  ⟨h.levels c, h.overrideTrims c, h.storedTrims c⟩

theorem arrayInRange (h : RangesHold s) : ArrayInRange s.array := ⟨h.arrayCurves, h.arrayTrims, h.arrayStartup⟩

theorem congr (h : RangesHold s) (same : SameRanged s t) : RangesHold t := by
  obtain ⟨channels, curves, cues, active, array, inFlight⟩ := same
  constructor
  · rw [channels]; exact h.levels
  · rw [channels]; exact h.overrideTrims
  · rw [channels]; exact h.storedTrims
  · rw [curves]; exact h.curves
  · rw [cues]; exact h.cues
  · rw [active]; exact h.copies
  · rw [array]; exact h.arrayCurves
  · rw [array]; exact h.arrayTrims
  · rw [array]; exact h.arrayStartup
  · rw [inFlight]; exact h.snapshot

theorem mapChannels (h : RangesHold s) (f : ChannelNo → Channel → Channel)
    (hf : ∀ c, ChannelInRange (f c s.channels[c])) : RangesHold (s.mapChannels f) := by
  have inRange : ∀ c : ChannelNo, ChannelInRange (s.mapChannels f).channels[c] := fun c => by
    rw [State.mapChannels_channels]
    exact hf c
  constructor
  · exact fun c => (inRange c).1
  · exact fun c => (inRange c).2.1
  · exact fun c => (inRange c).2.2
  · rw [State.mapChannels_curves]; exact h.curves
  · rw [State.mapChannels_cues]; exact h.cues
  · rw [State.mapChannels_active]; exact h.copies
  · rw [State.mapChannels_array]; exact h.arrayCurves
  · rw [State.mapChannels_array]; exact h.arrayTrims
  · rw [State.mapChannels_array]; exact h.arrayStartup
  · rw [State.mapChannels_inFlight]; exact h.snapshot

theorem recode (h : RangesHold s) (p : Channel → Bool) : RangesHold (s.recode p) :=
  h.mapChannels _ fun c => by split <;> exact h.channel c

theorem recodeAll (h : RangesHold s) : RangesHold s.recodeAll := by
  rw [State.recodeAll_eq_recode]
  exact h.recode _

theorem mapSelected (h : RangesHold s) (mask : Half) (f : Channel → Channel)
    (hf : ∀ ch, ChannelInRange ch → ChannelInRange (f ch)) : RangesHold (s.mapSelected mask f) :=
  h.mapChannels _ fun c => by split <;> [exact hf _ (h.channel c); exact h.channel c]

theorem setCurves (h : RangesHold s) {v : Vector Curve 7} (hv : ∀ k : Fin 7, validCurve v[k] = true) :
    RangesHold (s.setCurves v) :=
  ⟨h.levels, h.overrideTrims, h.storedTrims, hv, h.cues, h.copies, h.arrayCurves, h.arrayTrims, h.arrayStartup, h.snapshot⟩

theorem setCurve (h : RangesHold s) (k : SlotNo) {c : Curve} (hc : validCurve c = true) : RangesHold (s.setCurve k c) := by
  refine h.setCurves (v := s.curves.setIfInBounds (k.val - 1) c) fun j => ?_
  by_cases e : k.val - 1 = j.val
  · simp [e, hc]
  · have other : (s.curves.setIfInBounds (k.val - 1) c)[j] = s.curves[j] := by simp [e]
    rw [other]
    exact h.curves j

theorem withCue (h : RangesHold s) (c : CueIdx) {o : Option CueRecord} (ho : ∀ r ∈ o, ∀ e ∈ r.entries, EntryInRange e) :
    RangesHold { s with cues := s.cues.set c o } := by
  refine ⟨h.levels, h.overrideTrims, h.storedTrims, h.curves, fun c' => ?_, h.copies, h.arrayCurves, h.arrayTrims,
    h.arrayStartup, h.snapshot⟩
  by_cases e : c.val = c'.val
  · simpa [e] using ho
  · have other : (s.cues.set c o)[c'] = s.cues[c'] := by simp [e]
    rw [other]
    exact h.cues c'

theorem withArray (h : RangesHold s) {a : RetainedArray} (ha : ArrayInRange a) : RangesHold { s with array := a } :=
  ⟨h.levels, h.overrideTrims, h.storedTrims, h.curves, h.cues, h.copies, ha.curves, ha.trims, ha.startup, h.snapshot⟩

theorem withInFlight (h : RangesHold s) {o : Option Program} (ho : ∀ p ∈ o, ContentInRange p.snapshot) :
    RangesHold { s with inFlight := o } :=
  ⟨h.levels, h.overrideTrims, h.storedTrims, h.curves, h.cues, h.copies, h.arrayCurves, h.arrayTrims, h.arrayStartup, ho⟩

/-! ## Ranges under the requests -/

theorem writeClass (h : RangesHold s) (p : RunProfile) (k : Fin 6) : RangesHold (s.writeClass p k) :=
  h.congr (by cases p <;> exact ⟨rfl, rfl, rfl, rfl, rfl, rfl⟩)

theorem trimSet (h : RangesHold s) (mask : Half) {trim : Int} (ht : TrimInRange trim) :
    RangesHold (Machine.trimSet mask trim s).1 := by
  rw [trimSet_state]
  refine h.mapSelected mask _ fun ch hch => ?_
  unfold State.withOverride
  split <;> exact ⟨hch.1, ht, hch.2.2⟩

theorem trimSource (h : RangesHold s) (mask : Half) (x : TrimSource) : RangesHold (setTrimSource mask x s).1 := by
  rw [setTrimSource_state]
  exact h.mapSelected mask _ fun _ hch => hch

theorem setLevel (h : RangesHold s) (shape : CueShape s) (mask : Half) {level : Nat} (hl : level ≤ 1000) :
    RangesHold (Machine.setLevel mask level s).1 := by
  have levelled : RangesHold (s.levelled mask level) := h.mapSelected mask _ fun _ hch => ⟨hl, hch.2⟩
  have overrides : EndsEntries fun i => i.endFades (fun c => selects mask c) .overridden := endsEntries_endFades _ (by simp)
  rw [setLevel_state]
  have levelledShape : CueShape (s.levelled mask level) :=
    shape.congr (by simp [State.levelled, State.mapSelected]) (by simp [State.levelled, State.mapSelected])
  exact levelled.steps levelledShape ((CueSteps.single (.restate _ overrides)).trans (CueSteps.sweep _))

/-- A snapshot of a state in range is in range (R103). -/
theorem snapshotInRange (h : RangesHold s) (k : RecordKind) {fade : Nat} (hf : fade ≤ 60000) (p : RunProfile) :
    ContentInRange (s.snapshot k fade p) := by
  cases k with
  | curves => exact h.curves
  | trims => exact fun c => by simpa using h.overrideTrims c
  | startup => exact ⟨fun c => by simpa using h.levels c, hf⟩
  | label => trivial

theorem beginProgram (h : RangesHold s) (k : RecordKind) (g : GenIdx) {fade : Nat} (hf : fade ≤ 60000) (p : RunProfile) :
    RangesHold (s.beginProgram k g fade p) := by
  have taken : RangesHold { s with map := s.map.setPlace k g .writing } := h.congr ⟨rfl, rfl, rfl, rfl, rfl, rfl⟩
  refine taken.withInFlight (o := some ⟨g, s.snapshot k fade p, s.clock⟩) fun q hq => ?_
  obtain rfl := Option.mem_some_iff.1 hq
  exact h.snapshotInRange k hf p

theorem loadedCurves_valid (h : RangesHold s) (k : Fin 7) : validCurve s.loadedCurves[k] = true := by
  unfold State.loadedCurves
  split
  · rename_i c hc
    exact recordedContent_inRange h.arrayCurves hc k
  · simp [validCurve_linear]

theorem loadedTrims_inRange (h : RangesHold s) (c : ChannelNo) : TrimInRange s.loadedTrims[c] := by
  unfold State.loadedTrims
  split
  · rename_i t ht
    exact recordedContent_inRange h.arrayTrims ht c
  · simp [trimInRange_zero]

theorem writeTrims (h : RangesHold s) {v : Vector Int 16} (hv : ∀ c : ChannelNo, TrimInRange v[c]) : RangesHold (s.writeTrims v) :=
  h.mapChannels _ fun c => ⟨h.levels c, h.overrideTrims c, hv c⟩

theorem applyTrims (h : RangesHold s) {v : Vector Int 16} (hv : ∀ c : ChannelNo, TrimInRange v[c]) : RangesHold (s.applyTrims v) :=
  (h.writeTrims hv).recode _

theorem effect (h : RangesHold s) (shape : CueShape s) (k : RequestEffect s t) : RangesHold t := by
  cases k with
  | nothing => exact h
  | fetch m => exact h.congr ⟨rfl, rfl, rfl, rfl, rfl, rfl⟩
  | restart => exact h.congr ⟨rfl, rfl, rfl, rfl, rfl, rfl⟩
  | setProfile p =>
    have written : RangesHold { s with profile := p, heldFrom := s.heldFromAfter p } := h.congr ⟨rfl, rfl, rfl, rfl, rfl, rfl⟩
    exact written.recodeAll
  | setCeilingInForce p k => exact (h.writeClass p k).recodeAll
  | setCeilingAside p k => exact h.writeClass p k
  | curveWrite k c hc =>
    rw [State.writeCurve_eq]
    exact (h.setCurve k hc).recode _
  | bind mask k => exact h.mapSelected mask _ fun _ hch => hch
  | trimSet mask trim ht => exact h.trimSet mask ht
  | trimSource mask x => exact h.trimSource mask x
  | setLevel mask level hl => exact h.setLevel shape mask hl
  | cueLoad c r _ hr => exact h.withCue c fun r' hr' => by obtain rfl := Option.mem_some_iff.1 hr'; exact hr
  | cueClear c => exact h.withCue c fun r hr => by cases hr
  | cueGo c r refusal hr => exact h.steps shape (CueSteps.startCue .request refusal hr)
  | cueArm c m => exact h.congr ⟨rfl, rfl, rfl, rfl, rfl, rfl⟩
  | cueDisarm => exact h.congr ⟨rfl, rfl, rfl, rfl, rfl, rfl⟩
  | cueStop i => exact h.steps shape (CueSteps.stopInstance s i)
  | cueStopAll => exact h.steps shape (CueSteps.stopAll s)
  | storeProgram k g fade p hf => exact h.beginProgram k g hf p
  | loadCurves =>
    rw [State.applyCurves_eq]
    exact (h.setCurves h.loadedCurves_valid).recode _
  | loadTrims => exact h.applyTrims h.loadedTrims_inRange
  | loadLabel => exact h.congr ⟨rfl, rfl, rfl, rfl, rfl, rfl⟩
  | replay x _ _ hx fresh => exact h.steps shape (CueSteps.startScene fresh hx)
  | labelSet v => exact h.congr ⟨rfl, rfl, rfl, rfl, rfl, rfl⟩

/-! ## Ranges under the events -/

theorem report (h : RangesHold s) (b : ReportBody) : RangesHold (s.report b) := h.congr (by simp [SameRanged])

/-- A GOOD TRIMS program writes its snapshot's trims; no other writes a channel (R105, R106). -/
theorem afterProgram (h : RangesHold s) {p : Program} (hp : ContentInRange p.snapshot) (o : ReadBack) :
    RangesHold (s.afterProgram p o) := by
  unfold State.afterProgram
  split
  · split
    · rename_i v hv
      rw [hv] at hp
      exact h.applyTrims hp
    · exact h
  · exact h

theorem clearProgram (h : RangesHold s) : RangesHold s.clearProgram := h.withInFlight (o := none) fun q hq => by cases hq

theorem endProgram (h : RangesHold s) {p : Program} (hp : s.inFlight = some p) (o : ReadBack) : RangesHold (s.endProgram p o) := by
  have snapshot : ContentInRange p.snapshot := h.snapshot p hp
  have settled : RangesHold (s.settleProgram p o) :=
    (h.withArray (h.arrayInRange.put snapshot o)).congr ⟨rfl, rfl, rfl, rfl, rfl, rfl⟩
  unfold State.endProgram
  exact ((settled.report _).afterProgram snapshot o).clearProgram

theorem takeLoaded (h : RangesHold s) : RangesHold s.takeLoaded :=
  congr (s := s.setCurves s.loadedCurves) (h.setCurves h.loadedCurves_valid) ⟨rfl, rfl, rfl, rfl, rfl, rfl⟩

/-- Load completion writes curves, trims and a scene that the array holds in their ranges, or the defaults (R109, R129, R130). -/
theorem loadArray (h : RangesHold s) : RangesHold s.loadArray := by
  have read : RangesHold s.readArray := h.congr ⟨rfl, rfl, rfl, rfl, rfl, rfl⟩
  have written : RangesHold (s.readArray.takeLoaded.writeTrims s.readArray.loadedTrims) :=
    read.takeLoaded.writeTrims read.loadedTrims_inRange
  rw [State.loadArray]
  exact written.recodeAll

theorem applyLoaded (h : RangesHold s) : RangesHold s.applyLoaded := by
  unfold State.applyLoaded
  split
  · rename_i x _
    have bound : RangesHold (s.bindScene x) := h.mapChannels _ fun c => h.channel c
    have applied : RangesHold { s.bindScene x with
        profile := x.profile.toProfile
        activeClass := x.activeClass
        economyClass := x.economyClass } := bound.congr (by simp [SameRanged])
    rw [State.applyScene]
    exact applied.recodeAll
  · exact h

theorem becomeReady (h : RangesHold s) : RangesHold s.becomeReady := h.congr ⟨rfl, rfl, rfl, rfl, rfl, rfl⟩

theorem playLoaded (h : RangesHold s) (shape : CueShape s) (quiet : s.active = []) : RangesHold s.playLoaded := by
  unfold State.playLoaded
  split
  · rename_i x hx
    have fresh : idHeld s.active 0 = false := by rw [quiet]; rfl
    exact h.steps shape (CueSteps.startScene fresh hx)
  · exact h

theorem load (h : RangesHold s) (shape : CueShape s) (quiet : s.active = []) : RangesHold s.load := by
  have reported : RangesHold (s.loadArray.applyLoaded.report s.loadArray.applyLoaded.startBody) := h.loadArray.applyLoaded.report _
  rw [State.load_eq]
  exact (reported.playLoaded (shape.congr (by simp) (by simp)) (by simp [quiet])).becomeReady

theorem cutProgram (h : RangesHold s) : RangesHold s.cutProgram := by
  unfold State.cutProgram
  split
  · exact h
  · exact h.withArray (h.arrayInRange.putBad _ _)

/-- The base values lie in the ranges, and the array stands (R126). -/
theorem base (h : RangesHold s) (cause : ResetCause) (rate : BitRate) : RangesHold (s.base cause rate) where
  levels := fun c => by simp [State.base, State.reset, baseChannel]
  overrideTrims := fun c => by simp [State.base, State.reset, baseChannel, trimInRange_zero]
  storedTrims := fun c => by simp [State.base, State.reset, baseChannel, trimInRange_zero]
  curves := fun k => by simp [State.base, State.reset, validCurve_linear]
  cues := fun c r hr => by simp [State.base, State.reset] at hr
  copies := fun i hi => by cases hi
  arrayCurves := h.arrayCurves
  arrayTrims := h.arrayTrims
  arrayStartup := h.arrayStartup
  snapshot := fun p hp => by cases hp

theorem change (h : RangesHold s) (sound : EngineSound s) (k : Change s t) : RangesHold t := by
  have shape := sound.cueShape
  cases k with
  | nothing => exact h
  | receives r => exact h.congr ⟨rfl, rfl, rfl, rfl, rfl, rfl⟩
  | answers f => exact h.congr (by simp [SameRanged])
  | executes k q p => exact (h.effect shape (handlerOf_effect k p s)).congr ⟨rfl, rfl, rfl, rfl, rfl, rfl⟩
  | expiry =>
    have ticked : RangesHold s.tick := h.congr ⟨rfl, rfl, rfl, rfl, rfl, rfl⟩
    exact ticked.steps (shape.congr rfl rfl) (CueSteps.expiry s)
  | takeEdge =>
    obtain ⟨u, o, steps, e⟩ := CueSteps.takeEdge s
    have marked : RangesHold s.markEdge := h.congr ⟨rfl, rfl, rfl, rfl, rfl, rfl⟩
    rw [e]
    exact (marked.steps (shape.congr rfl rfl) steps).congr ⟨rfl, rfl, rfl, rfl, rfl, rfl⟩
  | endProgram p o _ hp => exact h.endProgram hp o
  | load hp => exact h.load shape (sound.startQuiet hp).1
  | resetCondition c => exact h.cutProgram.congr ⟨rfl, rfl, rfl, rfl, rfl, rfl⟩
  | base cause rate => exact h.base cause rate
  | oe l => exact h.congr ⟨rfl, rfl, rfl, rfl, rfl, rfl⟩
  | timeout => exact h.congr (by simp [SameRanged])
  | endSending x => exact h.congr (by unfold State.endSending; split <;> exact ⟨rfl, rfl, rfl, rfl, rfl, rfl⟩)
  | resetLink t => exact h.congr (by simp [SameRanged, State.resetLink])
  | fallsHeld => exact h.congr ⟨rfl, rfl, rfl, rfl, rfl, rfl⟩
  | fallsIdle => exact h.congr ⟨rfl, rfl, rfl, rfl, rfl, rfl⟩
  | fallsAgain => exact h.congr ⟨rfl, rfl, rfl, rfl, rfl, rfl⟩
  | risesHeld => exact h.congr ⟨rfl, rfl, rfl, rfl, rfl, rfl⟩
  | rises => exact h.congr ⟨rfl, rfl, rfl, rfl, rfl, rfl⟩

end RangesHold

/-- Settles O17: a request writes fields that its reader has found in range, a load writes content that is in range in the array,
and the steps of the Cue Engine keep the ranges where the Active List has its shape. -/
theorem rangesAreKept : Obligations.RangesAreKept := fun _ _ _ sound h k => h.change sound (exec_change k)

end Sys2Proof.Machine
end

section
/-!
Curves (R4, R5): what a valid curve is, and the one value it gives a level.
-/
namespace Sys2Proof.Machine

/-! ## Valid curves (R4) -/

theorem inputsRise_iff_isChain (c : Curve) : inputsRise c = true ↔ c.IsChain fun p q => p.input < q.input := by
  induction c with
  | nil => simp [inputsRise]
  | cons p c ih =>
    cases c with
    | nil => simp [inputsRise]
    | cons q c => simp only [inputsRise, Bool.and_eq_true, decide_eq_true_eq, ih, List.isChain_cons_cons]

/-- The inputs rise from each point to the next exactly when they rise from each point to every later one. -/
theorem inputsRise_iff (c : Curve) : inputsRise c = true ↔ c.Pairwise fun p q => p.input < q.input := by
  have : IsTrans Point fun p q => p.input < q.input := ⟨fun _ _ _ h k => Nat.lt_trans h k⟩
  rw [inputsRise_iff_isChain, List.isChain_iff_pairwise]

theorem validCurve_iff (c : Curve) : validCurve c = true ↔
    (2 ≤ c.length ∧ c.length ≤ 16) ∧ c.head?.map Point.input = some 0 ∧ c.getLast?.map Point.input = some 1000 ∧
      c.Pairwise (fun p q => p.input < q.input) ∧ ∀ p ∈ c, p.output ≤ 4095 := by
  simp only [validCurve, Bool.and_eq_true, decide_eq_true_eq, inputsRise_iff, List.all_eq_true, and_assoc]

/-- In a rising list no input passes the last. -/
theorem input_le_last {c : Curve} (rise : c.Pairwise fun p q => p.input < q.input) {last : Point} (h : c.getLast? = some last) :
    ∀ p ∈ c, p.input ≤ last.input := by
  obtain ⟨front, rfl⟩ := List.getLast?_eq_some_iff.1 h
  intro p hp
  rcases List.mem_append.1 hp with hp | hp
  · exact Nat.le_of_lt ((List.pairwise_append.1 rise).2.2 p hp last (by simp))
  · rw [List.mem_singleton.1 hp]

theorem validCurve_input_le {c : Curve} (valid : validCurve c = true) : ∀ p ∈ c, p.input ≤ 1000 := by
  obtain ⟨-, -, hlast, rise, -⟩ := (validCurve_iff c).1 valid
  obtain ⟨last, h, e⟩ := Option.map_eq_some_iff.1 hlast
  exact e ▸ input_le_last rise h

/-! ## The curve value (R5) -/

/-- The value between two numbers, rounded to the nearest whole number and half up. -/
theorem rounded_between {a b x y : Nat} (hx : 0 < x) (hy : 0 < y) :
    min a b ≤ (2 * (a * y + b * x) + (x + y)) / (2 * (x + y)) ∧ (2 * (a * y + b * x) + (x + y)) / (2 * (x + y)) ≤ max a b := by
  have low : min a b * (x + y) ≤ a * y + b * x := by
    rw [Nat.mul_add, Nat.add_comm]
    exact Nat.add_le_add (Nat.mul_le_mul_right y (Nat.min_le_left a b)) (Nat.mul_le_mul_right x (Nat.min_le_right a b))
  have high : a * y + b * x ≤ max a b * (x + y) := by
    rw [Nat.mul_add, Nat.add_comm (max a b * x)]
    exact Nat.add_le_add (Nat.mul_le_mul_right y (Nat.le_max_left a b)) (Nat.mul_le_mul_right x (Nat.le_max_right a b))
  constructor
  · rw [Nat.le_div_iff_mul_le (by omega)]
    calc min a b * (2 * (x + y)) = 2 * (min a b * (x + y)) := by ring
      _ ≤ 2 * (a * y + b * x) + (x + y) := by omega
  · rw [← Nat.lt_succ_iff, Nat.div_lt_iff_lt_mul (by omega)]
    calc 2 * (a * y + b * x) + (x + y) < 2 * (max a b * (x + y)) + 2 * (x + y) := by omega
      _ = (max a b).succ * (2 * (x + y)) := by rw [Nat.succ_eq_add_one]; ring

theorem interpolate_between {p q : Point} {level : Nat} (hp : p.input < level) (hq : level < q.input) :
    min p.output q.output ≤ interpolate p q level ∧ interpolate p q level ≤ max p.output q.output := by
  have := rounded_between (a := p.output) (b := q.output) (x := level - p.input) (y := q.input - level) (by omega) (by omega)
  rwa [show level - p.input + (q.input - level) = q.input - p.input by omega] at this

/-- A value of R5, with the interpolation under its name. -/
theorem isCurveValue_iff {c : Curve} {level v : Nat} :
    IsCurveValue c level v ↔ (∃ p ∈ c, p.input = level ∧ v = p.output) ∨
      ∃ before p q after, c = before ++ p :: q :: after ∧ p.input < level ∧ level < q.input ∧ v = interpolate p q level :=
  Iff.rfl

/-- At the first point's input the value is that point's output. -/
theorem isCurveValue_first {p : Point} {c : Curve} (rise : (p :: c).Pairwise fun p q => p.input < q.input) {v : Nat} :
    IsCurveValue (p :: c) p.input v ↔ v = p.output := by
  have later : ∀ q ∈ c, p.input < q.input := (List.pairwise_cons.1 rise).1
  rw [isCurveValue_iff]
  constructor
  · rintro (⟨q, hq, e, rfl⟩ | ⟨before, a, b, after, e, ha, -, -⟩)
    · rcases List.mem_cons.1 hq with rfl | hq
      · rfl
      · exact absurd e (Nat.ne_of_gt (later q hq))
    · have mem : a ∈ p :: c := by rw [e]; simp
      rcases List.mem_cons.1 mem with rfl | mem
      · exact absurd ha (Nat.lt_irrefl _)
      · exact absurd ha (Nat.lt_asymm (later a mem))
  · rintro rfl
    exact .inl ⟨p, by simp, rfl, rfl⟩

/-- Between the first two points' inputs the value is the interpolation of the two. -/
theorem isCurveValue_between {p q : Point} {c : Curve} (rise : (p :: q :: c).Pairwise fun p q => p.input < q.input)
    {level v : Nat} (hp : p.input < level) (hq : level < q.input) :
    IsCurveValue (p :: q :: c) level v ↔ v = interpolate p q level := by
  have later : ∀ r ∈ q :: c, q.input ≤ r.input := by
    intro r hr
    rcases List.mem_cons.1 hr with rfl | hr
    · exact Nat.le_refl _
    · exact Nat.le_of_lt ((List.pairwise_cons.1 (List.pairwise_cons.1 rise).2).1 r hr)
  rw [isCurveValue_iff]
  constructor
  · rintro (⟨r, hr, e, -⟩ | ⟨before, a, b, after, e, ha, hb, rfl⟩)
    · rcases List.mem_cons.1 hr with rfl | hr
      · omega
      · have := later r hr
        omega
    · cases before with
      | nil => cases e; rfl
      | cons _ before =>
        have mem : a ∈ q :: c := by rw [(List.cons.inj e).2]; simp
        have := later a mem
        omega
  · rintro rfl
    exact .inr ⟨[], p, q, c, rfl, hp, hq, rfl⟩

/-- From the second point's input on, the first point is not used. -/
theorem isCurveValue_beyond {p q : Point} {c : Curve} {level v : Nat} (hp : p.input < level) (hq : q.input ≤ level) :
    IsCurveValue (p :: q :: c) level v ↔ IsCurveValue (q :: c) level v := by
  rw [isCurveValue_iff, isCurveValue_iff]
  constructor
  · rintro (⟨r, hr, e, hv⟩ | ⟨before, a, b, after, e, ha, hb, hv⟩)
    · rcases List.mem_cons.1 hr with rfl | hr
      · omega
      · exact .inl ⟨r, hr, e, hv⟩
    · cases before with
      | nil => cases e; omega
      | cons _ before => exact .inr ⟨before, a, b, after, (List.cons.inj e).2, ha, hb, hv⟩
  · rintro (⟨r, hr, e, hv⟩ | ⟨before, a, b, after, e, ha, hb, hv⟩)
    · exact .inl ⟨r, List.mem_cons_of_mem p hr, e, hv⟩
    · exact .inr ⟨p :: before, a, b, after, by rw [e]; rfl, ha, hb, hv⟩

/-- On rising inputs, from the first to the last, the model's value is the one that R5 allows. -/
theorem isCurveValue_iff_eq {c : Curve} (rise : c.Pairwise fun p q => p.input < q.input) {first last : Point} {level : Nat}
    (hfirst : c.head? = some first) (hlast : c.getLast? = some last) (low : first.input ≤ level) (high : level ≤ last.input)
    (v : Nat) : IsCurveValue c level v ↔ v = curveValue c level := by
  induction c generalizing first with
  | nil => cases hfirst
  | cons p c ih =>
    obtain rfl : p = first := by simpa using hfirst
    cases c with
    | nil =>
      obtain rfl : p = last := by simpa using hlast
      obtain rfl : level = p.input := Nat.le_antisymm high low
      rw [isCurveValue_first rise, curveValue]
    | cons q c =>
      rw [curveValue]
      by_cases atFirst : level = p.input
      · subst atFirst
        rw [isCurveValue_first rise, if_pos rfl]
      · rw [if_neg atFirst]
        have above : p.input < level := by omega
        by_cases below : level < q.input
        · rw [isCurveValue_between rise above below, if_pos below]
        · rw [isCurveValue_beyond above (by omega), if_neg below]
          exact ih (List.pairwise_cons.1 rise).2 rfl (by rwa [List.getLast?_cons_cons] at hlast) (by omega)

/-- Under a valid curve every level has one value (R5). -/
theorem validCurve_value {c : Curve} (valid : validCurve c = true) {level : Nat} (hl : level ≤ 1000) (v : Nat) :
    IsCurveValue c level v ↔ v = curveValue c level := by
  obtain ⟨-, hfirst, hlast, rise, -⟩ := (validCurve_iff c).1 valid
  obtain ⟨first, hf, low⟩ := Option.map_eq_some_iff.1 hfirst
  obtain ⟨last, hl', high⟩ := Option.map_eq_some_iff.1 hlast
  exact isCurveValue_iff_eq rise hf hl' (by omega) (by omega) v

/-- A value of R5 passes no bound of the outputs. -/
theorem isCurveValue_le {c : Curve} {level v bound : Nat} (h : ∀ p ∈ c, p.output ≤ bound) (hv : IsCurveValue c level v) :
    v ≤ bound := by
  rcases isCurveValue_iff.1 hv with ⟨p, hp, -, rfl⟩ | ⟨before, p, q, after, rfl, hp, hq, rfl⟩
  · exact h p hp
  · exact Nat.le_trans (interpolate_between hp hq).2 (Nat.max_le.2 ⟨h p (by simp), h q (by simp)⟩)

/-- Settles O20, by induction on the points of the curve. -/
theorem curveValueIsR5 : Obligations.CurveValueIsR5 := by
  intro c level valid hl
  have one := validCurve_value valid hl
  obtain ⟨-, -, -, -, outputs⟩ := (validCurve_iff c).1 valid
  refine ⟨one, isCurveValue_le outputs ((one _).2 rfl), fun before p q after e hp hq => ?_⟩
  have used : interpolate p q level = curveValue c level := (one _).1 (isCurveValue_iff.2 (.inr ⟨before, p, q, after, e, hp, hq, rfl⟩))
  rw [← used]
  exact interpolate_between hp hq

/-! ## CURVE_WRITE (R15) -/

/-- CURVE_WRITE of a list of points whose fields fit their bytes: slot and points are read as they were written (R174, R190). -/
theorem handleCurveWrite_points {k : SlotNo} {c : Curve} (fields : ∀ p ∈ c, p.input < 65536 ∧ p.output < 65536)
    (count : c.length < 256) (s : State) :
    handleCurveWrite (byteOf k.val :: byteOf c.length :: (c.map fun p => bytes16 p.input ++ bytes16 p.output).flatten) s =
      curveWrite k c s := by
  have length : ((c.map fun p => bytes16 p.input ++ bytes16 p.output).flatten).length = 4 * (byteOf c.length).toNat := by
    rw [toNat_byteOf _ count]
    exact length_pointBytes c
  have read : points (c.map fun p => bytes16 p.input ++ bytes16 p.output).flatten = c := points_bytes c fields
  simp only [handleCurveWrite, length, ne_eq, not_true_eq_false, if_false, slot?_byteOf, read]

/-- A frame's payload has room for fewer than 256 points (R150). -/
theorem count_lt_of_executes {s : State} {q : Byte} {k : SlotNo} {c : Curve}
    (he : Executes s .curveWrite q
      (byteOf k.val :: byteOf c.length :: (c.map fun p => bytes16 p.input ++ bytes16 p.output).flatten)) : c.length < 256 := by
  have fits := he.1
  have length : ((c.map fun p => bytes16 p.input ++ bytes16 p.output).flatten).length = 4 * c.length := length_pointBytes c
  simp only [List.length_cons, length] at fits
  omega

/-- An executed CURVE_WRITE of a list of points does what the list and the slot decide (R15). -/
theorem exec_curveWrite_points {s : State} {q : Byte} {k : SlotNo} {c : Curve} {p : List Byte}
    (hp : p = byteOf k.val :: byteOf c.length :: (c.map fun p => bytes16 p.input ++ bytes16 p.output).flatten)
    (fields : ∀ p ∈ c, p.input < 65536 ∧ p.output < 65536) (he : Executes s .curveWrite q p) :
    exec (.curveWrite q p) s = .next (answered (curveWrite k c s).1 .curveWrite q p (curveWrite k c s).2) := by
  have run : handlerOf .curveWrite p s = curveWrite k c s := by
    rw [hp]
    exact handleCurveWrite_points fields (count_lt_of_executes (hp ▸ he)) s
  rw [exec_of_executes he rfl (by simp), run]

theorem curveWrite_invalid {c : Curve} (h : validCurve c = false) (k : SlotNo) (s : State) :
    curveWrite k c s = refuse s .badCurve := by
  simp [curveWrite, h]

/-- Settles O19: the conditions of R4 are those of the check, and the check comes before the slot's. -/
theorem validCurveIsR4 : Obligations.ValidCurveIsR4 := by
  refine ⟨validCurve_iff, fun c valid => validCurve_input_le valid, ?_⟩
  intro s q k c fields invalid payload he
  rw [exec_curveWrite_points rfl fields he, curveWrite_invalid invalid]
  rfl

end Sys2Proof.Machine
end

section
/-!
The refusals of requests by their form (R166, R168): BAD_LENGTH for a Fixed payload of another length, RANGE for a field outside its
range.
-/
namespace Sys2Proof.Machine

/-! ## Readers of fields outside their ranges -/

theorem fetchMax?_none {b : Byte} (h : b = 0 ∨ 16 < b.toNat) : fetchMax? b = none := by
  rcases h with rfl | h
  · rfl
  · exact if_neg (by omega)

theorem profile?_none {b : Byte} (h : 3 < b.toNat) : profile? b = none := by
  unfold profile?
  repeat rw [if_neg (by rintro rfl; simp at h)]

theorem runProfile?_none {b : Byte} (h : 1 < b.toNat) : runProfile? b = none := by
  unfold runProfile?
  repeat rw [if_neg (by rintro rfl; simp at h)]

theorem trimSource?_none {b : Byte} (h : 1 < b.toNat) : trimSource? b = none := by
  unfold trimSource?
  repeat rw [if_neg (by rintro rfl; simp at h)]

theorem class?_none {b : Byte} (h : 5 < b.toNat) : class? b = none := dif_neg (by omega)

theorem slot?_none {b : Byte} (h : 7 < b.toNat) : slot? b = none := dif_neg (by omega)

theorem channel?_none {b : Byte} (h : 15 < b.toNat) : channel? b = none := dif_neg (by omega)

theorem mask?_none {m1 m0 : Byte} (h : m1 = 0 ∧ m0 = 0) : mask? m1 m0 = none := by
  obtain ⟨rfl, rfl⟩ := h
  rfl

theorem trim?_none {t1 t0 : Byte} (h : signed16 t1 t0 < -255 ∨ 255 < signed16 t1 t0) : trim? t1 t0 = none := if_neg (by omega)

theorem level?_none {l1 l0 : Byte} (h : 1000 < word16 l1 l0) : level? l1 l0 = none := if_neg (by omega)

theorem cue?_none {b : Byte} (h : b = 0 ∨ 32 < b.toNat) : cue? b = none := by
  rcases h with rfl | h
  · rfl
  · exact dif_neg (by omega)

theorem armMode?_none {b : Byte} (h : b ≠ 0x01 ∧ b ≠ 0x02) : armMode? b = none := by
  rw [armMode?, if_neg h.1, if_neg h.2]

theorem recordKind?_none {b : Byte} (h : b = 0 ∨ 4 < b.toNat) : recordKind? b = none := by
  rcases h with rfl | h
  · rfl
  · unfold recordKind?
    repeat rw [if_neg (by rintro rfl; simp at h)]

/-! ## The refusals -/

/-- A Fixed payload of another length is refused BAD_LENGTH. -/
theorem handlerOf_badLength {k : RequestKind} {n : Nat} (fixed : fixedLength k = some n) {p : List Byte} (hp : p.length ≠ n)
    (s : State) : handlerOf k p s = refuse s .badLength := by
  cases k <;> cases fixed
  case labelSet => exact dif_neg hp
  case storeLoad =>
    show handleStoreLoad p s = _
    unfold handleStoreLoad refuseStoreLoad
    split
    · exact absurd rfl hp
    · split
      · exact absurd rfl hp
      · rfl
  all_goals
    simp only [handlerOf, handleHello, handleStatus, handleFetch, handleRestart, handleSetProfile, handleSetCeiling,
      handleCurveRead, handleBind, handleTrimSet, handleTrimSource, handleChannelRead, handleSetLevel, handleCueRead,
      handleCueClear, handleCueGo, handleCueArm, handleCueDisarm, handleCueStop, handleCueStopAll, handleActiveRead,
      handleStoreStatus]
    split
    · exact absurd rfl hp
    · rfl

/-- A payload of the right Fixed length with a field outside its range is refused RANGE. -/
theorem handlerOf_outOfRange {k : RequestKind} {p : List Byte} (h : OutOfRange k p) (s : State) :
    handlerOf k p s = refuse s .range := by
  unfold OutOfRange at h
  split at h
  · simp only [handlerOf, handleFetch, fetchMax?_none h]
  · simp only [handlerOf, handleSetProfile, profile?_none h]
  · simp only [handlerOf, handleSetCeiling]
    rcases h with h | h
    · simp only [runProfile?_none h]
    · rw [class?_none h]
      split <;> [contradiction; rfl]
  · simp only [handlerOf, handleCurveRead, slot?_none h]
  · simp only [handlerOf, handleBind]
    rcases h with h | h
    · simp only [mask?_none h]
    · rw [slot?_none h]
      split <;> [contradiction; rfl]
  · simp only [handlerOf, handleTrimSet]
    rcases h with h | h
    · simp only [mask?_none h]
    · rw [trim?_none h]
      split <;> [contradiction; rfl]
  · simp only [handlerOf, handleTrimSource]
    rcases h with h | h
    · simp only [mask?_none h]
    · rw [trimSource?_none h]
      split <;> [contradiction; rfl]
  · simp only [handlerOf, handleChannelRead, channel?_none h]
  · simp only [handlerOf, handleSetLevel]
    rcases h with h | h
    · simp only [mask?_none h]
    · rw [level?_none h]
      split <;> [contradiction; rfl]
  · simp only [handlerOf, handleCueRead, cue?_none h]
  · simp only [handlerOf, handleCueClear, cue?_none h]
  · simp only [handlerOf, handleCueGo, cue?_none h]
  · simp only [handlerOf, handleCueArm]
    rcases or_assoc.2 h with h | h
    · simp only [cue?_none h]
    · rw [armMode?_none h]
      split <;> [contradiction; rfl]
  · simp only [handlerOf, handleStoreLoad, recordKind?_none h, refuseStoreLoad]
  · exact h.elim

/-- Every request row with a Fixed payload, STORE_LOAD's apart, is refused by its form. -/
theorem formRefusals {k : RequestKind} {q : Byte} {command : List Byte → Instr}
    (row : ∀ p, requestOf (command p) = some (k, q, p)) (hk : k ≠ .storeLoad) (s : State) : FormRefusals s q k command := by
  intro p n fixed he
  rw [exec_of_executes he (row p) hk]
  constructor
  · intro length
    rw [handlerOf_badLength fixed length]
    rfl
  · intro _ range
    rw [handlerOf_outOfRange range]
    rfl

end Sys2Proof.Machine
end

section
/-!
The requests on curves and channels and the reads (1.5, 1.6, 10.4), and the law of the drive code (R6 to R8).
-/
namespace Sys2Proof.Machine

/-! ## CURVE_WRITE (R15) -/

theorem curveWrite_readOnly {c : Curve} (valid : validCurve c = true) (s : State) : curveWrite 0 c s = refuse s .readOnly := by
  simp [curveWrite, valid]

theorem curveWrite_inUse {k : SlotNo} {c : Curve} {s : State} (valid : validCurve c = true) (hk : k ≠ 0)
    (owned : ∃ n : ChannelNo, s.channels[n].owned = true ∧ s.channels[n].slot = k) : curveWrite k c s = refuse s .inUse := by
  have inUse : s.ownedOn (fun k' => decide (k' = k)) = true := (s.ownedOn_iff _).2 (by simpa using owned)
  simp [curveWrite, valid, hk, inUse]

theorem curveWrite_accepts {k : SlotNo} {c : Curve} {s : State} (valid : validCurve c = true) (hk : k ≠ 0)
    (free : ∀ n : ChannelNo, s.channels[n].owned = true → s.channels[n].slot ≠ k) :
    curveWrite k c s = accept (s.writeCurve k c) [] := by
  have unused : s.ownedOn (fun k' => decide (k' = k)) = false := by
    rw [Bool.eq_false_iff]
    intro inUse
    obtain ⟨n, owned, slot⟩ := (s.ownedOn_iff _).1 inUse
    exact free n owned (of_decide_eq_true slot)
  simp [curveWrite, valid, hk, unused]

/-- The state with a curve in a slot, slot by slot (R3). -/
theorem State.setCurve_eq (s : State) {k : SlotNo} (hk : k ≠ 0) (c : Curve) :
    s.setCurve k c = { s with curves := Vector.ofFn fun j => if j.val + 1 = k.val then c else s.curves[j] } := by
  have positive : k.val ≠ 0 := fun e => hk (Fin.ext e)
  unfold State.setCurve
  congr 1
  ext j hj : 1
  simp only [Vector.getElem_setIfInBounds, Vector.getElem_ofFn]
  by_cases here : k.val - 1 = j
  · rw [if_pos here, if_pos (by omega)]
  · rw [if_neg here, if_neg (by omega)]
    rfl

/-- A slot's curve written, with the codes of the channels bound to it, channel by channel (R9, R15). -/
theorem State.writeCurve_channels (s : State) (k : SlotNo) (c : Curve) :
    s.writeCurve k c = { s.setCurve k c with channels := Vector.ofFn fun n =>
      if s.channels[n].slot = k then { s.channels[n] with driveCode := (s.setCurve k c).codeOf s.channels[n] }
      else s.channels[n] } := by
  simp only [State.writeCurve_eq, State.recode, State.mapChannels, decide_eq_true_eq]
  rfl

/-- Settles O24: the handler's checks come in the order of R15, and its write is the slot's and its channels' codes. -/
theorem curveWriteReplacesTheSlot : Obligations.CurveWriteReplacesTheSlot := by
  intro s q
  refine ⟨fun p he short => ?_, fun a n rest he length range => ?_, fun k c fields => ?_⟩
  · have refused : handlerOf .curveWrite p s = refuse s .badLength := by
      show handleCurveWrite p s = _
      rcases short with short | ⟨a, n, rest, rfl, length⟩
      · unfold handleCurveWrite
        split
        · simp only [List.length_cons] at short
          omega
        · rfl
      · exact if_pos length
    rw [exec_of_executes he rfl (by simp), refused]
    rfl
  · have refused : handlerOf .curveWrite (a :: n :: rest) s = refuse s .range := by
      simp [handlerOf, handleCurveWrite, length, slot?_none range]
    rw [exec_of_executes he rfl (by simp), refused]
    rfl
  intro payload he
  refine ⟨?_, ?_, ?_, ?_⟩
  · intro invalid
    rw [exec_curveWrite_points rfl fields he, curveWrite_invalid invalid]
    rfl
  · rintro valid rfl
    rw [exec_curveWrite_points rfl fields he, curveWrite_readOnly valid]
    rfl
  · intro valid hk owned
    rw [exec_curveWrite_points rfl fields he, curveWrite_inUse valid hk owned]
    rfl
  · intro valid hk free
    rw [exec_curveWrite_points rfl fields he, curveWrite_accepts valid hk free, State.writeCurve_channels, State.setCurve_eq s hk c]
    rfl

/-! ## BIND (R11) -/

theorem handleBind_bytes {mask : Half} (hm : mask ≠ 0) (k : SlotNo) (s : State) :
    handlerOf .bind (maskBytes mask ++ [byteOf k.val]) s = bindChannels mask k s := by
  simp only [handlerOf, maskBytes, List.cons_append, List.nil_append, handleBind, mask?_bytes mask hm, slot?_byteOf]

/-- Settles O22. -/
theorem bindBindsFreeChannels : Obligations.BindBindsFreeChannels := by
  refine ⟨fun s q => formRefusals (fun _ => rfl) (by simp) s, fun s q mask k hm he => ?_⟩
  rw [exec_of_executes he rfl (by simp), handleBind_bytes hm]
  refine ⟨fun owned => ?_, fun free => ?_, fun current c slot => ?_⟩
  · rw [bindChannels, if_pos ((s.ownedIn_iff mask).2 owned)]
    rfl
  · have unowned : ¬ s.ownedIn mask = true := by
      intro h
      obtain ⟨c, selected, owned⟩ := (s.ownedIn_iff mask).1 h
      rw [free c selected] at owned
      cases owned
    rw [bindChannels, if_neg unowned]
    rfl
  · rw [← slot, current c]

/-! ## TRIM_SET and TRIM_SOURCE (R12, R13) -/

theorem handleTrimSet_bytes {mask : Half} (hm : mask ≠ 0) {trim : Int} (ht : TrimInRange trim) (s : State) :
    handlerOf .trimSet (maskBytes mask ++ bytesSigned16 trim) s = trimSet mask trim s := by
  simp only [handlerOf, maskBytes, bytesSigned16, List.cons_append, List.nil_append, handleTrimSet, mask?_bytes mask hm,
    trim?_bytes trim ht]

theorem handleTrimSource_bytes {mask : Half} (hm : mask ≠ 0) (x : TrimSource) (s : State) :
    handlerOf .trimSource (maskBytes mask ++ [x.code]) s = setTrimSource mask x s := by
  simp only [handlerOf, maskBytes, List.cons_append, List.nil_append, handleTrimSource, mask?_bytes mask hm, trimSource?_code]

theorem State.withOverride_eq (s : State) (trim : Int) (ch : Channel) :
    s.withOverride trim ch =
      if ch.source = .override then { ch with overrideTrim := trim, driveCode := s.codeOf { ch with overrideTrim := trim } }
      else { ch with overrideTrim := trim } := by
  unfold State.withOverride
  cases h : ch.source <;> simp [State.recoded]

/-- With equal trims, or with the source as it was, the effective trim is the same (R6, R13). -/
theorem Channel.effectiveTrim_withSource {ch : Channel} {x : TrimSource}
    (h : ch.source = x ∨ ch.overrideTrim = ch.storedTrim) : Channel.effectiveTrim { ch with source := x } = ch.effectiveTrim := by
  rcases h with rfl | equal
  · rfl
  · cases x <;> cases hs : ch.source <;> simp [Channel.effectiveTrim, hs, equal]

/-- Settles O23. -/
theorem trimRequests : Obligations.TrimRequests := by
  refine ⟨fun s q => ⟨formRefusals (fun _ => rfl) (by simp) s, formRefusals (fun _ => rfl) (by simp) s⟩,
    fun s q mask hm => ⟨fun trim ht he => ?_, fun x he => ⟨?_, fun current c same => ?_⟩⟩⟩
  · have written : (trimSet mask trim s).1 = { s with
        channels := Vector.ofFn fun c => if selects mask c then s.withOverride trim s.channels[c] else s.channels[c] } := rfl
    rw [exec_of_executes he rfl (by simp), handleTrimSet_bytes hm ht, written]
    simp only [State.withOverride_eq]
    rfl
  · rw [exec_of_executes he rfl (by simp), handleTrimSource_bytes hm]
    rfl
  · rw [current c]
    exact s.codeOf_congr rfl rfl (Channel.effectiveTrim_withSource same)

/-! ## Reads (R14, R16, R28, R58) -/

/-- Settles O25. -/
theorem readRequestsShowTheState : Obligations.ReadRequestsShowTheState := by
  intro s q
  refine ⟨⟨formRefusals (fun _ => rfl) (by simp) s, formRefusals (fun _ => rfl) (by simp) s,
    formRefusals (fun _ => rfl) (by simp) s, formRefusals (fun _ => rfl) (by simp) s⟩, fun k he => ?_, rfl, fun c he => ?_,
    fun c he => ⟨fun undefined => ?_, fun r defined => ?_⟩, fun he => ?_⟩
  · have read : handlerOf .curveRead [byteOf k.val] s =
        accept s (byteOf (s.curveAt k).length :: ((s.curveAt k).map pointBytes).flatten) := by
      simp only [handlerOf, handleCurveRead, slot?_byteOf]
    rw [exec_of_executes he rfl (by simp), read]
    rfl
  · have read : handlerOf .channelRead [byteOf c.val] s = accept s (channelBytes s.channels[c]) := by
      simp only [handlerOf, handleChannelRead, channel?_byteOf]
    rw [exec_of_executes he rfl (by simp), read]
    cases ho : s.channels[c].owner <;> simp only [accept, channelBytes, ownerBytes, ho]
  · have read : handlerOf .cueRead [byteOf (c.val + 1)] s = refuse s .empty := by
      simp only [handlerOf, handleCueRead, cue?_byteOf, undefined]
    rw [exec_of_executes he rfl (by simp), read]
    rfl
  · have read : handlerOf .cueRead [byteOf (c.val + 1)] s = accept s (recordBytes c r) := by
      simp only [handlerOf, handleCueRead, cue?_byteOf, defined]
    rw [exec_of_executes he rfl (by simp), read]
    cases hf : r.follow <;> simp only [accept, recordBytes, hf] <;> rfl
  · rw [exec_of_executes he rfl (by simp)]
    rfl

/-! ## The law of the drive code (R6, R7, R8, R78) -/

/-- The ceiling in force is that of the profile whose ceiling is in force (R78). -/
theorem State.ceiling_inForce {s : State} {p : RunProfile} (h : CeilingInForce s p) : s.ceiling = some (classCeiling (s.classOf p)) := by
  have inForce : s.ceilingProfile = some p := by
    unfold State.ceilingProfile
    rcases h with running | ⟨hold, from_⟩
    · rw [running]
      cases p <;> rfl
    · rw [hold, from_]
  rw [State.ceiling, inForce]
  rfl

theorem State.codeOf_dark (s : State) {ch : Channel} (h : ch.level = 0 ∨ s.profile = .standby) : s.codeOf ch = 0 := by
  unfold State.codeOf
  rcases h with dark | standby
  · split
    · rfl
    · rw [if_pos dark]
  · have none_ : s.ceiling = none := by rw [State.ceiling, State.ceilingProfile, standby]; rfl
    rw [none_]

theorem State.codeOf_lit {s : State} {ch : Channel} {ceiling : Nat} (h : s.ceiling = some ceiling) (lit : ch.level ≠ 0) :
    s.codeOf ch = clampCode (curveValue (s.curveAt ch.slot) ch.level + ch.effectiveTrim) ceiling := by
  unfold State.codeOf
  rw [h]
  exact if_neg lit

theorem clampCode_law (sum : Int) (ceiling : Nat) :
    (sum < 0 → clampCode sum ceiling = 0) ∧ ((ceiling : Int) < sum → clampCode sum ceiling = ceiling) ∧
      (0 ≤ sum → sum ≤ ceiling → (clampCode sum ceiling : Int) = sum) := by
  unfold clampCode
  refine ⟨fun h => if_pos h, fun h => ?_, fun h0 h1 => ?_⟩
  · rw [if_neg (by omega), if_pos h]
  · rw [if_neg (by omega), if_neg (by omega), Int.toNat_of_nonneg h0]

/-- The ceilings by class, as a table (R78). -/
theorem classCeiling_table : ∀ k : Fin 6, (#v[4095, 3686, 3276, 2867, 2457, 2048] : Vector Nat 6)[k] = classCeiling k := by decide

theorem Channel.effectiveTrim_eq (ch : Channel) :
    ch.effectiveTrim = if ch.source = .override then ch.overrideTrim else ch.storedTrim := by
  unfold Channel.effectiveTrim
  cases ch.source <;> rfl

/-- Settles O21. -/
theorem driveCodeLaw : Obligations.DriveCodeLaw := by
  intro s ch
  refine ⟨s.codeOf_dark, fun p inForce lit => ?_⟩
  intro trim sum ofClass ceiling
  have spelled : ceiling = classCeiling (s.classOf p) := by
    cases p <;> exact classCeiling_table _
  rw [State.codeOf_lit (State.ceiling_inForce inForce) lit, Channel.effectiveTrim_eq, spelled]
  exact clampCode_law sum _

end Sys2Proof.Machine
end

section
/-!
The pins and ATTN (R10, R90, R123, R146), the reset base (R126), the state right after reset, and the commands that write levels (R2).
-/
namespace Sys2Proof.Machine

/-! ## The pins and ATTN -/

theorem State.conditionHolds_iff (s : State) :
    s.conditionHolds = true ↔ s.phase = .held .power ∨ s.phase = .held .pin := by
  unfold State.conditionHolds
  rcases s.phase with (_ | _ | _) | _ | _ <;> simp

theorem State.reportCount_pos (s : State) : 0 < s.reportCount ↔ s.reports ≠ [] ∨ s.overflow ≠ none := by
  unfold State.reportCount
  cases s.reports <;> cases s.overflow <;> simp

/-- Settles O13. -/
theorem outputsFollowTheState : Obligations.OutputsFollowTheState := by
  intro s
  refine ⟨fun c dark => ?_, fun c high phase => ?_, fun notPower notPin => ?_, fun held => ?_, fun l => rfl⟩
  · unfold State.delivered
    rw [if_pos]
    rw [State.conditionHolds_iff]
    exact dark
  · unfold State.delivered
    rw [if_neg]
    rw [State.conditionHolds_iff, high]
    rcases phase with ready | restart
    · simp [ready]
    · simp [restart]
  · have unheld : s.conditionHolds = false := by
      rw [Bool.eq_false_iff, ne_eq, State.conditionHolds_iff]
      exact fun h => h.elim notPower notPin
    simp [State.attnLow, unheld, State.reportCount_pos]
  · simp [State.attnLow, (State.conditionHolds_iff s).2 held]

/-! ## The reset base -/

/-- Settles O54. -/
theorem resetBaseGivesBaseValues : Obligations.ResetBaseGivesBaseValues := by
  intro s r1 r0
  constructor
  · intro unheld
    simp only [exec, execResetBase]
    split
    · rename_i cause held
      rw [State.isHeld, held] at unheld
      cases unheld
    · rfl
  · intro cause held
    simp only [exec, execResetBase, held]
    cases r1 <;> cases r0 <;> rfl

/-! ## The state right after reset -/

@[simp] theorem reset_channels (c : ChannelNo) : State.reset.channels[c] = baseChannel := by simp [State.reset]

@[simp] theorem reset_cues (c : CueIdx) : State.reset.cues[c] = none := by simp [State.reset]

theorem codesCurrent_reset : CodesCurrent State.reset := fun c => by
  rw [reset_channels]
  rfl

theorem rangesHold_reset : RangesHold State.reset where
  levels := fun c => by rw [reset_channels]; exact Nat.zero_le _
  overrideTrims := fun c => by rw [reset_channels]; exact trimInRange_zero
  storedTrims := fun c => by rw [reset_channels]; exact trimInRange_zero
  curves := fun k => by simp [State.reset, validCurve_linear]
  cues := fun c r hr => by rw [reset_cues] at hr; cases hr
  copies := fun i hi => by cases hi
  arrayCurves := fun g => by simp [State.reset, blankArray, PlaceInRange]
  arrayTrims := fun g => by simp [State.reset, blankArray, PlaceInRange]
  arrayStartup := fun g => by simp [State.reset, blankArray, PlaceInRange]
  snapshot := fun p hp => by cases hp

theorem engineSound_reset : EngineSound State.reset where
  atMostFour := Nat.zero_le 4
  idsDistinct := List.nodup_nil
  nextIdPositive := by decide
  recordsShaped := fun c r hr => by rw [reset_cues] at hr; cases hr
  instancesShaped := fun i hi => by cases hi
  ownership := fun c id => by
    rw [reset_channels]
    exact ⟨fun h => (by cases h), fun ⟨_, hi, _⟩ => (by cases hi)⟩
  live := fun i hi => by cases hi
  timed := fun i hi => by cases hi
  follows := Nat.zero_le 4
  startQuiet := fun _ => ⟨rfl, rfl⟩
  startDark := fun _ c => by rw [reset_channels]; rfl
  startQueue := fun _ => ⟨rfl, rfl, rfl, rfl⟩

theorem storeSound_reset : StoreSound State.reset where
  arrayPrefix := fun k => ⟨0, Nat.zero_le 4, fun g => ⟨fun h => absurd h (Nat.not_lt_zero _), fun _ => by
    cases k <;> simp [State.reset, blankArray, RetainedArray.found, GenMap.ofKind, placeState]⟩⟩
  ready := fun h => by cases h
  start := fun _ => ⟨rfl, rfl⟩
  held := fun h => by cases h
  restart := fun h => by cases h

theorem linkSound_reset : LinkSound State.reset where
  timer := ⟨fun _ => rfl, fun _ => rfl⟩
  partialFrame := trivial
  order := fun h => absurd rfl h
  broken := fun h => by cases h
  startClear := fun _ => rfl
  line := fun _ => ⟨fun _ => rfl, fun _ => rfl⟩

/-- Settles O59. -/
theorem lawsHoldAtReset : Obligations.LawsHoldAtReset :=
  ⟨codesCurrent_reset, rangesHold_reset, engineSound_reset, fun _ ha => (by cases ha), ⟨Nat.zero_le 15, trivial⟩, storeSound_reset,
    linkSound_reset⟩

/-! ## The commands that write levels (R2) -/

/-- No channel's level differs. -/
def SameLevels (s t : State) : Prop := ∀ c : ChannelNo, t.channels[c].level = s.channels[c].level

namespace SameLevels

variable {s t u : State}

theorem of_channels (h : t.channels = s.channels) : SameLevels s t := fun c => by rw [h]

theorem trans (h : SameLevels s t) (k : SameLevels t u) : SameLevels s u := fun c => (k c).trans (h c)

theorem mapChannels (s : State) (f : ChannelNo → Channel → Channel) (hf : ∀ c ch, (f c ch).level = ch.level) :
    SameLevels s (s.mapChannels f) := fun c => by rw [State.mapChannels_channels, hf]

theorem mapSelected (s : State) (mask : Half) (f : Channel → Channel) (hf : ∀ ch, (f ch).level = ch.level) :
    SameLevels s (s.mapSelected mask f) :=
  mapChannels s _ fun c ch => by split <;> [exact hf ch; rfl]

theorem recode (s : State) (p : Channel → Bool) : SameLevels s (s.recode p) := mapChannels s _ fun c ch => by split <;> rfl

theorem recodeAll (s : State) : SameLevels s s.recodeAll := recode s _

theorem writeCurve (s : State) (k : SlotNo) (c : Curve) : SameLevels s (s.writeCurve k c) := by
  rw [State.writeCurve_eq]
  exact recode (s.setCurve k c) _

theorem applyCurves (s : State) (v : Vector Curve 7) : SameLevels s (s.applyCurves v) := by
  rw [State.applyCurves_eq]
  exact recode (s.setCurves v) _

theorem setProfile (s : State) (p : Profile) : SameLevels s { s with profile := p, heldFrom := s.heldFromAfter p }.recodeAll := by
  have written : SameLevels s { s with profile := p, heldFrom := s.heldFromAfter p } := .of_channels rfl
  exact written.trans (recodeAll _)

theorem applyTrims (s : State) (v : Vector Int 16) : SameLevels s (s.applyTrims v) := by
  have written : SameLevels s (s.writeTrims v) := mapChannels s _ fun _ _ => rfl
  exact written.trans (recode _ _)

theorem stopInstance (s : State) (i : Instance) : SameLevels s (s.stopInstance i) := by
  have released : SameLevels s (s.releaseFades i) := mapChannels s _ fun c ch => by split <;> rfl
  exact released.trans (of_channels (by simp [State.stopInstance, State.removeInstance]))

theorem foldl {α : Type} {f : State → α → State} (hf : ∀ s x, SameLevels s (f s x)) (l : List α) (s : State) :
    SameLevels s (l.foldl f s) := by
  induction l generalizing s with
  | nil => exact of_channels rfl
  | cons x l ih => exact (hf s x).trans (ih _)

theorem afterProgram (s : State) (p : Program) (o : ReadBack) : SameLevels s (s.afterProgram p o) := by
  unfold State.afterProgram
  split
  · split
    · exact applyTrims s _
    · exact of_channels rfl
  · exact of_channels rfl

theorem endProgram (s : State) (p : Program) (o : ReadBack) : SameLevels s (s.endProgram p o) := by
  have reported : SameLevels s ((s.settleProgram p o).report (.programDone p.snapshot.kind p.generation o)) :=
    of_channels (by simp [State.settleProgram])
  unfold State.endProgram
  exact (reported.trans (afterProgram _ p o)).trans (of_channels rfl)

end SameLevels

@[simp] theorem accept_state (s : State) (body : List Byte) : (accept s body).1 = s := rfl

@[simp] theorem refuse_state (s : State) (why : Status) : (refuse s why).1 = s := rfl

/-- A request handler that writes no level. -/
def KeepsLevels (run : Handler) : Prop := ∀ p s, SameLevels s (run p s).1

theorem handleSetProfile_keepsLevels : KeepsLevels handleSetProfile := fun p s => by
  unfold handleSetProfile
  split
  · split
    · split
      · exact .of_channels rfl
      · unfold setProfile
        split
        · exact .of_channels rfl
        · rename_i p' _ _ _
          rw [accept_state]
          exact .setProfile s p'
    · exact .of_channels rfl
  · exact .of_channels rfl

theorem handleSetCeiling_keepsLevels : KeepsLevels handleSetCeiling := fun p s => by
  unfold handleSetCeiling
  split
  · split
    · rename_i r k _ _
      have written : SameLevels s (s.writeClass r k) := .of_channels (by simp)
      unfold setCeiling
      split
      · exact written.trans (.recodeAll _)
      · exact written
    · exact .of_channels rfl
  · exact .of_channels rfl

theorem handleCurveWrite_keepsLevels : KeepsLevels handleCurveWrite := fun p s => by
  have write : ∀ k c, SameLevels s (curveWrite k c s).1 := fun k c => by
    unfold curveWrite
    split
    · exact .of_channels rfl
    · split
      · exact .of_channels rfl
      · split
        · exact .of_channels rfl
        · rw [accept_state]
          exact .writeCurve s k c
  unfold handleCurveWrite
  split
  · split
    · exact .of_channels rfl
    · split
      · exact .of_channels rfl
      · exact write _ _
  · exact .of_channels rfl

theorem handleBind_keepsLevels : KeepsLevels handleBind := fun p s => by
  unfold handleBind
  split
  · split
    · unfold bindChannels
      split
      · exact .of_channels rfl
      · rw [accept_state]
        refine SameLevels.mapSelected s _ _ fun _ => ?_
        rfl
    · exact .of_channels rfl
  · exact .of_channels rfl

theorem handleTrimSet_keepsLevels : KeepsLevels handleTrimSet := fun p s => by
  unfold handleTrimSet
  split
  · split
    · rw [trimSet_state]
      refine SameLevels.mapSelected s _ _ fun ch => ?_
      unfold State.withOverride
      split <;> rfl
    · exact .of_channels rfl
  · exact .of_channels rfl

theorem handleTrimSource_keepsLevels : KeepsLevels handleTrimSource := fun p s => by
  unfold handleTrimSource
  split
  · split
    · rw [setTrimSource_state]
      refine SameLevels.mapSelected s _ _ fun _ => ?_
      rfl
    · exact .of_channels rfl
  · exact .of_channels rfl

theorem handleCueStop_keepsLevels : KeepsLevels handleCueStop := fun p s => by
  unfold handleCueStop
  split
  · split
    · exact .of_channels rfl
    · exact SameLevels.stopInstance s _
  · exact .of_channels rfl

theorem handleCueStopAll_keepsLevels : KeepsLevels handleCueStopAll := fun p s => by
  unfold handleCueStopAll
  split
  · have stopped := SameLevels.foldl SameLevels.stopInstance s.active s
    exact stopped.trans (u := (s.active.foldl State.stopInstance s).clearFollows) (.of_channels rfl)
  · exact .of_channels rfl

/-- The requests that write no channel record at all. -/
theorem handlerOf_channels {k : RequestKind}
    (hk : k ∉ [.setProfile, .setCeiling, .curveWrite, .bind, .trimSet, .trimSource, .setLevel, .cueGo, .cueStop, .cueStopAll,
      .storeLoad]) (p : List Byte) (s : State) : (handlerOf k p s).1.channels = s.channels := by
  cases k <;> simp only [List.mem_cons, reduceCtorEq, List.not_mem_nil, or_self, or_false, or_true, not_true_eq_false,
    not_false_eq_true] at hk
  all_goals
    simp only [handlerOf, handleHello, handleStatus, handleFetch, handleRestart, handleCurveRead, handleChannelRead,
      handleCueLoad, cueLoad, handleCueRead, handleCueClear, handleCueArm, handleCueDisarm, handleActiveRead, handleStoreStatus,
      handleStoreProgram, storeProgram, handleLabelSet]
    repeat' split
  all_goals rfl

/-- The requests but SET_LEVEL, CUE_GO and STORE_LOAD write no level (R2). -/
theorem handlerOf_keepsLevels {k : RequestKind} (h1 : k ≠ .setLevel) (h2 : k ≠ .cueGo) (h3 : k ≠ .storeLoad) :
    KeepsLevels (handlerOf k) := by
  cases k with
  | setProfile => exact handleSetProfile_keepsLevels
  | setCeiling => exact handleSetCeiling_keepsLevels
  | curveWrite => exact handleCurveWrite_keepsLevels
  | bind => exact handleBind_keepsLevels
  | trimSet => exact handleTrimSet_keepsLevels
  | trimSource => exact handleTrimSource_keepsLevels
  | cueStop => exact handleCueStop_keepsLevels
  | cueStopAll => exact handleCueStopAll_keepsLevels
  | setLevel => exact absurd rfl h1
  | cueGo => exact absurd rfl h2
  | storeLoad => exact absurd rfl h3
  | _ => exact fun p s => .of_channels (handlerOf_channels (by simp) p s)

theorem storeLoadCurves_keepsLevels (s : State) : SameLevels s (storeLoadCurves s).1 := by
  unfold storeLoadCurves
  split
  · exact .of_channels rfl
  · split
    · exact .of_channels rfl
    · exact SameLevels.applyCurves s _

theorem storeLoadTrims_keepsLevels (s : State) : SameLevels s (storeLoadTrims s).1 := by
  unfold storeLoadTrims
  split
  · exact .of_channels rfl
  · exact SameLevels.applyTrims s _

theorem storeLoadLabel_keepsLevels (s : State) : SameLevels s (storeLoadLabel s).1 := by
  unfold storeLoadLabel
  split
  · exact .of_channels rfl
  · exact .of_channels rfl

theorem refuseStoreLoad_keepsLevels : KeepsLevels refuseStoreLoad := fun p s => by
  unfold refuseStoreLoad
  split <;> exact .of_channels rfl

/-- A request row whose handler writes no level writes none. -/
theorem requestStep_sameLevels {k : RequestKind} {run : Handler} (keeps : KeepsLevels run) {q : Byte} {p : List Byte} {s t : State}
    (h : requestStep k run q p s = .next t) : SameLevels s t := by
  rcases (requestStep_cases h).2 with ⟨-, rfl⟩ | ⟨-, -, rfl⟩ | ⟨-, -, ⟨f, -, rfl⟩ | ⟨-, ⟨-, rfl⟩ | ⟨-, rfl⟩⟩⟩
  · exact .of_channels rfl
  · exact .of_channels (by simp)
  · exact .of_channels (by simp)
  · exact .of_channels (by simp)
  · have ran : SameLevels s (run p s.toHunt).1 := keeps p s.toHunt
    exact ran.trans (.of_channels (by simp [State.execute, State.answer]))

/-- Settles O16. -/
theorem levelsAreWrittenByTheseAlone : Obligations.LevelsAreWrittenByTheseAlone := by
  intro c s t ch h changed
  have stands (same : SameLevels s t) : False := changed (same ch)
  have kept {k : RequestKind} {q : Byte} {p : List Byte} (h1 : k ≠ .setLevel) (h2 : k ≠ .cueGo) (h3 : k ≠ .storeLoad)
      (h : requestStep k (handlerOf k) q p s = .next t) : False :=
    stands (requestStep_sameLevels (handlerOf_keepsLevels h1 h2 h3) h)
  have event {u : State} (h : Host.Outcome.next (φ := Fault) (ρ := Refusal) u = .next t) (same : SameLevels s u) : False := by
    cases h
    exact stands same
  cases c with
  | setLevel | cueGo | storeLoadStartup | byteReceived | goFallingEdge | fadeClockExpiry | loadCompletion | resetBase => trivial
  | hello | status | fetch | restart | setProfile | setCeiling | curveWrite | curveRead | bind | trimSet | trimSource | channelRead
  | cueLoad | cueRead | cueClear | cueArm | cueDisarm | cueStop | cueStopAll | activeRead | storeStatus | storeProgram
  | labelSet => exact kept (by simp) (by simp) (by simp) h
  | storeLoadCurves q =>
    have run : KeepsLevels fun _ => storeLoadCurves := fun _ s => storeLoadCurves_keepsLevels s
    exact stands (requestStep_sameLevels (k := .storeLoad) (q := q) (p := [RecordKind.curves.code]) run h)
  | storeLoadTrims q =>
    have run : KeepsLevels fun _ => storeLoadTrims := fun _ s => storeLoadTrims_keepsLevels s
    exact stands (requestStep_sameLevels (k := .storeLoad) (q := q) (p := [RecordKind.trims.code]) run h)
  | storeLoadLabel q =>
    have run : KeepsLevels fun _ => storeLoadLabel := fun _ s => storeLoadLabel_keepsLevels s
    exact stands (requestStep_sameLevels (k := .storeLoad) (q := q) (p := [RecordKind.label.code]) run h)
  | storeLoadNoRecordKind q p =>
    simp only [exec, execStoreLoadNoRecordKind] at h
    split at h
    · split at h
      · cases h
      · exact stands (requestStep_sameLevels refuseStoreLoad_keepsLevels h)
    · exact stands (requestStep_sameLevels refuseStoreLoad_keepsLevels h)
  | programCompletion o =>
    refine event h ?_
    split
    · exact .of_channels rfl
    · split
      · exact .of_channels rfl
      · exact SameLevels.endProgram s _ o
  | resetCondition cause => exact event h (.of_channels (by simp))
  | oeChange l => exact event h (.of_channels rfl)
  | framingError => exact event h (.of_channels rfl)
  | interByteTimeout => exact event h (.of_channels (by split <;> simp))
  | transmissionEnd => exact event h (.of_channels (by split <;> [rfl; split <;> simp]))
  | linkReset => exact event h (.of_channels (by split <;> [rfl; split <;> simp [State.resetLink]]))
  | rxdFalls => exact event h (.of_channels (by split <;> [rfl; split <;> rfl]))
  | rxdRises => exact event h (.of_channels (by split <;> rfl))

end Sys2Proof.Machine
end

section
/-!
The start of an entry (R43), row by row.
-/
namespace Sys2Proof.Machine

/-! ## The Active List under a start -/

/-- An instance whose FADING entry for channel `c` a start takes over (R43). -/
def Instance.losing (c : ChannelNo) (j : Instance) : Instance := { j with
  entries := j.entries.map fun x => if x.entry.channel = c ∧ x.isFading = true then { x with state := .taken } else x }

theorem Instance.endFades_eq_losing (c : ChannelNo) (j : Instance) :
    j.endFades (fun c' => decide (c' = c)) .taken = j.losing c := by
  simp only [Instance.endFades, Instance.losing, Bool.and_eq_true, decide_eq_true_eq]

/-- The state of the instance's own entry is written over whatever the takeover made of it. -/
theorem Instance.losing_setEntry (c : ChannelNo) (out : EntryState) (i : Instance) :
    (i.losing c).setEntry c out = i.setEntry c out := by
  simp only [Instance.losing, Instance.setEntry, List.map_map]
  congr 1
  refine List.map_congr_left fun x _ => ?_
  simp only [Function.comp]
  by_cases fades : x.entry.channel = c ∧ x.isFading = true
  · simp [fades]
  · rw [if_neg fades]

theorem State.takeOver_eq (s : State) (c : ChannelNo) : s.takeOver c = { s with active := s.active.map (Instance.losing c) } := by
  simp only [State.takeOver, State.mapActive, Instance.endFades_eq_losing]

section Split

variable {s : State} {older newer : List Instance} {i : Instance}

/-- An entry's state is written in its own instance alone (R35). -/
theorem State.setEntry_split (ha : s.active = older ++ i :: newer) (ids : (s.active.map Instance.id).Nodup) (c : ChannelNo)
    (out : EntryState) : s.setEntry i.id c out = { s with active := older ++ i.setEntry c out :: newer } := by
  obtain ⟨ho, hn, -⟩ := ids_of_split (ha ▸ ids)
  have written := State.setEntry_active ha ho hn c out
  rw [State.setEntry_eq_mapActive] at written ⊢
  rw [← written]
  rfl

/-- A start that is not lost takes the channel's fades over and writes its own entry (R43). -/
theorem State.takeOver_setEntry (ha : s.active = older ++ i :: newer) (ids : (s.active.map Instance.id).Nodup) (c : ChannelNo)
    (out : EntryState) : (s.takeOver c).setEntry i.id c out =
      { s with active := older.map (Instance.losing c) ++ i.setEntry c out :: newer.map (Instance.losing c) } := by
  have split : (s.takeOver c).active = older.map (Instance.losing c) ++ i.losing c :: newer.map (Instance.losing c) := by
    simp [State.takeOver_eq, ha]
  have sameIds : ((s.takeOver c).active.map Instance.id).Nodup := by
    simpa [State.takeOver_eq, Instance.losing, Function.comp_def] using ids
  have written := State.setEntry_split split sameIds c out
  rw [Instance.losing_setEntry] at written
  rw [show i.id = (i.losing c).id from rfl, written, State.takeOver_eq]

/-- The owner of a channel is newer than an instance exactly when it stands behind it (R35, R43). -/
theorem State.heldByNewer_iff (ha : s.active = older ++ i :: newer) (ids : (s.active.map Instance.id).Nodup) (c : ChannelNo) :
    s.heldByNewer i.id c = true ↔ ∃ j ∈ newer, s.channels[c].owner = some j.id := by
  obtain ⟨ho, -, -⟩ := ids_of_split (ha ▸ ids)
  unfold State.heldByNewer
  cases s.channels[c].owner with
  | none => simp
  | some owner =>
    simp only [ha, newerThan_split ho owner, List.any_eq_true, decide_eq_true_eq, Option.some.injEq]
    exact exists_congr fun j => and_congr_right fun _ => eq_comm

/-- A FREE channel, or one of an older instance, is held by no newer one. -/
theorem State.not_heldByNewer (ha : s.active = older ++ i :: newer) (ids : (s.active.map Instance.id).Nodup) {c : ChannelNo}
    (h : s.channels[c].owner = none ∨ ∃ j ∈ older, s.channels[c].owner = some j.id) : ¬ s.heldByNewer i.id c = true := by
  obtain ⟨-, -, apart⟩ := ids_of_split (ha ▸ ids)
  rw [State.heldByNewer_iff ha ids]
  rintro ⟨k, hk, owner⟩
  rcases h with free | ⟨j, hj, held⟩
  · rw [free] at owner
    cases owner
  · exact apart j hj k hk (Option.some.inj (held.symm.trans owner))

end Split

/-! ## The channel under a start -/

/-- The channels with one record replaced. -/
def State.channelsWith (s : State) (c : ChannelNo) (new : Channel) : Vector Channel 16 :=
  Vector.ofFn fun c' => if c' = c then new else s.channels[c']

theorem State.ofFn_eq_channelsWith (s : State) (c : ChannelNo) (f : Channel → Channel) :
    (Vector.ofFn fun c' => if c' = c then f s.channels[c'] else s.channels[c']) = s.channelsWith c (f s.channels[c]) := by
  unfold State.channelsWith
  congr 1
  funext c'
  by_cases h : c' = c
  · subst h
    rfl
  · rw [if_neg h, if_neg h]

theorem State.codeOf_withActive (s : State) (l : List Instance) : State.codeOf { s with active := l } = s.codeOf :=
  SameShared.codeOf_eq ⟨rfl, rfl, rfl, rfl, rfl⟩

theorem State.writeLevel_withActive (s : State) (l : List Instance) (c : ChannelNo) (level : Nat) (owner : Option Byte) :
    State.writeLevel { s with active := l } c level owner = { s with
      channels := s.channelsWith c (s.recoded { s.channels[c] with level := level, owner := owner })
      active := l } := by
  rw [← s.ofFn_eq_channelsWith c fun ch => s.recoded { ch with level := level, owner := owner }]
  simp only [State.writeLevel, State.mapChannels, State.recoded, State.codeOf_withActive]

theorem State.writeOwner_withActive (s : State) (l : List Instance) (c : ChannelNo) (owner : Option Byte) :
    State.writeOwner { s with active := l } c owner = { s with
      channels := s.channelsWith c { s.channels[c] with owner := owner }
      active := l } := by
  rw [← s.ofFn_eq_channelsWith c fun ch => { ch with owner := owner }]
  rfl

/-- Settles O35: the list cut at the starting instance tells the newer owners from the others. -/
theorem entryStartTable : Obligations.EntryStartTable := by
  intro s older newer i e ha ids _ ch others becomes set
  refine ⟨fun newerHolds => ?_, fun olderHolds => ⟨fun atOnce => ?_, fun fades => ?_⟩⟩
  · rw [State.startEntry, if_pos ((State.heldByNewer_iff ha ids _).2 newerHolds), State.setEntry_split ha ids]
    rfl
  · rw [State.startEntry, if_neg (State.not_heldByNewer ha ids olderHolds), if_pos atOnce, State.takeOver_setEntry ha ids,
      State.writeLevel_withActive]
    rfl
  · rw [State.startEntry, if_neg (State.not_heldByNewer ha ids olderHolds), if_neg (by omega), State.takeOver_setEntry ha ids,
      State.writeOwner_withActive]
    rfl

end Sys2Proof.Machine
end

section
/-!
OE acts on the pins alone (R10, R90): the requests but STATUS and every event act the same at either level of OE.
-/
namespace Sys2Proof.Machine

/-! ## Requests that read nothing that stands aside -/

/-- A handler acts the same whatever stands aside, the level of OE included. -/
def IgnoresAside (run : Handler) : Prop :=
  ∀ (p : List Byte) (s : State) (a : Aside), run p (s.setAside a) = ((run p s).1.setAside a, (run p s).2)

@[simp] theorem State.ownedOn_setAside (s : State) (a : Aside) (p : SlotNo → Bool) : (s.setAside a).ownedOn p = s.ownedOn p := rfl

@[simp] theorem State.ownedIn_setAside (s : State) (a : Aside) (mask : Half) : (s.setAside a).ownedIn mask = s.ownedIn mask := rfl

@[simp] theorem State.isArmed_setAside (s : State) (a : Aside) (c : CueIdx) : (s.setAside a).isArmed c = s.isArmed c := rfl

theorem setProfile_setAside (p : Profile) (s : State) (a : Aside) :
    setProfile p (s.setAside a) = ((setProfile p s).1.setAside a, (setProfile p s).2) := by
  simp only [setProfile, State.setAside_profile, ite_actsAside]
  rfl

theorem setCeiling_setAside (p : RunProfile) (k : Fin 6) (s : State) (a : Aside) :
    setCeiling p k (s.setAside a) = ((setCeiling p k s).1.setAside a, (setCeiling p k s).2) := by
  simp only [setCeiling, State.ceilingProfile_setAside, ite_actsAside]
  cases p <;> rfl

theorem curveWrite_setAside (k : SlotNo) (c : Curve) (s : State) (a : Aside) :
    curveWrite k c (s.setAside a) = ((curveWrite k c s).1.setAside a, (curveWrite k c s).2) := by
  simp only [curveWrite, State.ownedOn_setAside, ite_actsAside]
  rfl

theorem bindChannels_setAside (mask : Half) (k : SlotNo) (s : State) (a : Aside) :
    bindChannels mask k (s.setAside a) = ((bindChannels mask k s).1.setAside a, (bindChannels mask k s).2) := by
  simp only [bindChannels, State.ownedIn_setAside, ite_actsAside]
  rfl

theorem cueLoad_setAside (c : CueIdx) (r : CueRecord) (s : State) (a : Aside) :
    cueLoad c r (s.setAside a) = ((cueLoad c r s).1.setAside a, (cueLoad c r s).2) := by
  simp only [cueLoad, ite_actsAside]
  rfl

/-- The requests that refuse by their payload's form alone, and otherwise read or write fields that are not aside. -/
theorem handlerOf_ignoresAside_of_form {k : RequestKind}
    (hk : k ∈ [.hello, .fetch, .curveRead, .trimSet, .trimSource, .channelRead, .cueDisarm, .activeRead, .storeStatus,
      .labelSet]) : IgnoresAside (handlerOf k) := by
  intro p s a
  simp only [List.mem_cons, List.not_mem_nil, or_false] at hk
  rcases hk with rfl | rfl | rfl | rfl | rfl | rfl | rfl | rfl | rfl | rfl
  all_goals
    simp only [handlerOf, handleHello, handleFetch, handleCurveRead, handleTrimSet, handleTrimSource, handleChannelRead,
      handleCueDisarm, handleActiveRead, handleStoreStatus, handleLabelSet]
    repeat' split
  all_goals rfl

theorem handleRestart_ignoresAside : IgnoresAside handleRestart := fun p s a => by
  unfold handleRestart
  split
  · simp only [State.setAside_inFlight, ite_actsAside]
    rfl
  · rfl

theorem handleSetProfile_ignoresAside : IgnoresAside handleSetProfile := fun p s a => by
  unfold handleSetProfile
  split
  · split
    · simp only [State.setAside_profile, setProfile_setAside, ite_actsAside, refuse]
    · rfl
  · rfl

theorem handleSetCeiling_ignoresAside : IgnoresAside handleSetCeiling := fun p s a => by
  unfold handleSetCeiling
  split
  · split
    · exact setCeiling_setAside _ _ s a
    · rfl
  · rfl

theorem handleCurveWrite_ignoresAside : IgnoresAside handleCurveWrite := fun p s a => by
  unfold handleCurveWrite
  split
  · split
    · rfl
    · split
      · rfl
      · exact curveWrite_setAside _ _ s a
  · rfl

theorem handleBind_ignoresAside : IgnoresAside handleBind := fun p s a => by
  unfold handleBind
  split
  · split
    · exact bindChannels_setAside _ _ s a
    · rfl
  · rfl

theorem handleSetLevel_ignoresAside : IgnoresAside handleSetLevel := fun p s a => by
  unfold handleSetLevel
  split
  · split
    · exact setLevel_setAside _ _ s a
    · rfl
  · rfl

theorem handleCueLoad_ignoresAside : IgnoresAside handleCueLoad := fun p s a => by
  unfold handleCueLoad
  split
  · split
    · rfl
    · split
      · rfl
      · split
        · exact cueLoad_setAside _ _ s a
        · rfl
  · rfl

theorem handleCueRead_ignoresAside : IgnoresAside handleCueRead := fun p s a => by
  unfold handleCueRead
  split
  · split
    · rfl
    · rename_i c _
      simp only [State.setAside_cues]
      cases s.cues[c] <;> rfl
  · rfl

theorem handleCueClear_ignoresAside : IgnoresAside handleCueClear := fun p s a => by
  unfold handleCueClear
  split
  · split
    · rfl
    · simp only [State.isArmed_setAside, ite_actsAside]
      rfl
  · rfl

theorem handleCueGo_ignoresAside : IgnoresAside handleCueGo := fun p s a => by
  unfold handleCueGo
  split
  · split
    · rfl
    · simp only [State.setAside_profile, cueGo_setAside, ite_actsAside, refuse]
  · rfl

theorem handleCueArm_ignoresAside : IgnoresAside handleCueArm := fun p s a => by
  unfold handleCueArm
  split
  · split
    · simp only [State.setAside_cues, ite_actsAside]
      rfl
    · rfl
  · rfl

theorem handleCueStop_ignoresAside : IgnoresAside handleCueStop := fun p s a => by
  unfold handleCueStop
  split
  · simp only [State.setAside_active]
    split
    · rfl
    · rw [State.stopInstance_setAside]
      rfl
  · rfl

theorem handleCueStopAll_ignoresAside : IgnoresAside handleCueStopAll := fun p s a => by
  unfold handleCueStopAll
  split
  · rw [State.setAside_active, State.stopAll_setAside]
    rfl
  · rfl

theorem handleStoreProgram_ignoresAside : IgnoresAside handleStoreProgram := fun p s a => by
  unfold handleStoreProgram
  split
  · split
    · rfl
    · exact storeProgram_setAside _ _ _ _ s a
    · rfl
  · split
    · split
      · exact storeProgram_setAside _ _ _ _ s a
      · rfl
    · rfl
  · rfl

theorem refuseStoreLoad_ignoresAside : IgnoresAside refuseStoreLoad := fun p s a => by
  unfold refuseStoreLoad
  split <;> rfl

theorem handleStoreLoad_ignoresAside : IgnoresAside handleStoreLoad := fun p s a => by
  unfold handleStoreLoad
  split
  · split
    · exact storeLoadCurves_setAside s a
    · exact storeLoadTrims_setAside s a
    · exact storeLoadStartup_setAside s a
    · exact storeLoadLabel_setAside s a
    · exact refuseStoreLoad_ignoresAside _ s a
  · exact refuseStoreLoad_ignoresAside _ s a

/-- Every request but STATUS acts the same whatever stands aside. -/
theorem handlerOf_ignoresAside {k : RequestKind} (hk : k ≠ .status) : IgnoresAside (handlerOf k) := by
  cases k with
  | status => exact absurd rfl hk
  | restart => exact handleRestart_ignoresAside
  | setProfile => exact handleSetProfile_ignoresAside
  | setCeiling => exact handleSetCeiling_ignoresAside
  | curveWrite => exact handleCurveWrite_ignoresAside
  | bind => exact handleBind_ignoresAside
  | setLevel => exact handleSetLevel_ignoresAside
  | cueLoad => exact handleCueLoad_ignoresAside
  | cueRead => exact handleCueRead_ignoresAside
  | cueClear => exact handleCueClear_ignoresAside
  | cueGo => exact handleCueGo_ignoresAside
  | cueArm => exact handleCueArm_ignoresAside
  | cueStop => exact handleCueStop_ignoresAside
  | cueStopAll => exact handleCueStopAll_ignoresAside
  | storeProgram => exact handleStoreProgram_ignoresAside
  | storeLoad => exact handleStoreLoad_ignoresAside
  | _ => exact handlerOf_ignoresAside_of_form (by simp)

/-! ## The state at another level of OE -/

/-- The state with OE at a level. -/
def State.withOe (s : State) (l : PinLevel) : State := { s with oe := l }

/-- An operation that acts the same whatever stands aside acts the same at either level of OE. -/
theorem State.withOe_of_setAside {f : State → State} (h : ∀ s a, f (s.setAside a) = (f s).setAside a) (s : State) (l : PinLevel) :
    f (s.withOe l) = (f s).withOe l := by
  have aside := State.aside_eq h s
  unfold State.withOe
  rw [State.withOe_eq_setAside, State.withOe_eq_setAside, h, aside]

theorem IgnoresAside.withOe {run : Handler} (h : IgnoresAside run) (p : List Byte) (s : State) (l : PinLevel) :
    run p (s.withOe l) = ((run p s).1.withOe l, (run p s).2) := by
  have aside : (run p s).1.aside = s.aside := by
    have same := h p s s.aside
    rw [State.setAside_aside] at same
    exact congrArg (fun r : State × Reply => r.1.aside) same
  unfold State.withOe
  rw [State.withOe_eq_setAside, State.withOe_eq_setAside, h, aside]

theorem State.offer_withOe (s : State) (l : PinLevel) (f : Frame) : (s.withOe l).offer f = (s.offer f).withOe l := by
  rcases hs : s.sending with _ | x <;> rcases hw : s.waiting with _ | g <;> simp only [State.offer, State.withOe, hs, hw]

theorem State.toHunt_withOe (s : State) (l : PinLevel) : (s.withOe l).toHunt = s.toHunt.withOe l := rfl

theorem State.answer_withOe (s : State) (l : PinLevel) (k : RequestKind) (q : Byte) (p : List Byte) (r : Reply) :
    (s.withOe l).answer k q p r = (s.answer k q p r).withOe l :=
  State.offer_withOe { s with lastReply := some { seq := q, check := frameCheck q k.code p, reply := replyFrame q k r } } l _

theorem State.ite_withOe {c : Prop} [Decidable c] (s t : State) (l : PinLevel) :
    (if c then s.withOe l else t.withOe l) = (if c then s else t).withOe l := by
  split <;> rfl

theorem State.admission_withOe {run : Handler} (h : IgnoresAside run) (s : State) (l : PinLevel) (k : RequestKind) (q : Byte)
    (p : List Byte) : (s.withOe l).admission k run q p = (s.admission k run q p).withOe l := by
  have repeats : (s.withOe l).repeatOf q (frameCheck q k.code p) = s.repeatOf q (frameCheck q k.code p) := rfl
  have sends : (s.withOe l).sending = s.sending := rfl
  unfold State.admission
  rw [repeats, sends]
  cases s.repeatOf q (frameCheck q k.code p) with
  | some f => exact s.offer_withOe l f
  | none => simp only [State.execute, h.withOe, State.answer_withOe, State.offer_withOe, State.ite_withOe]

theorem State.takeRequest_withOe {run : Handler} (h : IgnoresAside run) (s : State) (l : PinLevel) (k : RequestKind) (q : Byte)
    (p : List Byte) : (s.withOe l).takeRequest k run q p = (s.takeRequest k run q p).withOe l := by
  have phase : (s.withOe l).phase = s.phase := rfl
  simp only [State.takeRequest, phase, State.toHunt_withOe, State.offer_withOe, State.admission_withOe h, State.ite_withOe]

/-- A complete frame of any kind but STATUS. -/
theorem State.judge_withOe (s : State) (l : PinLevel) (q : Byte) {kind : Byte} (p : List Byte) (check : Half)
    (hk : kind ≠ RequestKind.status.code) : (s.withOe l).judge q kind p check = (s.judge q kind p check).withOe l := by
  have phase : (s.withOe l).phase = s.phase := rfl
  unfold State.judge
  rw [phase]
  cases hr : requestKind? kind with
  | none => simp only [State.toHunt_withOe, State.offer_withOe, State.ite_withOe]
  | some k =>
    have named : k.code = kind := by simpa using List.find?_some hr
    have ignores : IgnoresAside (handlerOf k) := handlerOf_ignoresAside (by rintro rfl; exact hk named.symm)
    simp only [State.toHunt_withOe, State.offer_withOe, State.admission_withOe ignores, State.ite_withOe]

/-- A byte, but the last of a STATUS frame. -/
theorem State.takeByte_withOe (s : State) (l : PinLevel) (b : Byte)
    (h : ∀ q p high, s.receiver ≠ .checkLow q RequestKind.status.code p high) :
    (s.withOe l).takeByte b = (s.takeByte b).withOe l := by
  have receiver : (s.withOe l).receiver = s.receiver := rfl
  have receiving : ∀ r, (s.withOe l).receiving r = (s.receiving r).withOe l := fun _ => rfl
  unfold State.takeByte
  rw [receiver]
  cases hr : s.receiver with
  | checkLow q kind p high => exact s.judge_withOe l q p _ (by rintro rfl; exact h q p high hr)
  | hunt | headerSeq | headerKind | headerLength | payload | checkHigh =>
    simp only [receiving, State.toHunt_withOe, State.offer_withOe, State.ite_withOe]

/-! ## Commands at another level of OE -/

/-- In `s` a step has the same outcome with OE at `l`, but for OE itself. -/
def BlindToOe (f : State → Host.Outcome State Fault Refusal) (s : State) (l : PinLevel) : Prop :=
  match f s with
  | .next t => f (s.withOe l) = .next (t.withOe l)
  | .fault _ => False
  | .refused r => f (s.withOe l) = .refused r

/-- A step that always answers a next state. -/
theorem BlindToOe.of_next {g : State → State} {s : State} {l : PinLevel} (h : g (s.withOe l) = (g s).withOe l) :
    BlindToOe (fun s => .next (g s)) s l :=
  congrArg Host.Outcome.next h

/-- An event that takes place under a condition that OE does not enter. -/
theorem BlindToOe.of_ite {p : State → Prop} [DecidablePred p] {g : State → State} {s : State} {l : PinLevel}
    (hp : p (s.withOe l) ↔ p s) (h : g (s.withOe l) = (g s).withOe l) :
    BlindToOe (fun s => .next (if p s then s else g s)) s l :=
  BlindToOe.of_next (g := fun s => if p s then s else g s) (by simp only [hp, h, State.ite_withOe])

theorem requestStep_blindToOe {run : Handler} (h : IgnoresAside run) (k : RequestKind) (q : Byte) (p : List Byte) (s : State)
    (l : PinLevel) : BlindToOe (requestStep k run q p) s l := by
  have deaf : (s.withOe l).deaf = s.deaf := rfl
  unfold BlindToOe
  by_cases fits : p.length ≤ Config.maxPayload
  · simp only [requestStep, fits, if_true, deaf, State.takeRequest_withOe h, State.ite_withOe]
  · simp only [requestStep, fits, if_false]

theorem execStoreLoadNoRecordKind_blindToOe (q : Byte) (p : List Byte) (s : State) (l : PinLevel) :
    BlindToOe (execStoreLoadNoRecordKind q p) s l := by
  have refuses := requestStep_blindToOe refuseStoreLoad_ignoresAside .storeLoad q p s l
  by_cases named : ∃ b k, p = [b] ∧ recordKind? b = some k
  · obtain ⟨b, k, rfl, hk⟩ := named
    simp only [BlindToOe, execStoreLoadNoRecordKind, hk]
  · have step : execStoreLoadNoRecordKind q p = requestStep .storeLoad refuseStoreLoad q p := by
      funext s
      unfold execStoreLoadNoRecordKind
      split
      · split
        · exact absurd ⟨_, _, rfl, ‹_›⟩ named
        · rfl
      · rfl
    rw [step]
    exact refuses

/-! ### Events at another level of OE -/

theorem execFadeClockExpiry_blindToOe (s : State) (l : PinLevel) : BlindToOe execFadeClockExpiry s l :=
  BlindToOe.of_ite (p := fun s => s.isHeld = true) (g := State.expiry) Iff.rfl (State.withOe_of_setAside State.expiry_setAside s l)

theorem execGoFallingEdge_blindToOe (s : State) (l : PinLevel) : BlindToOe execGoFallingEdge s l := by
  have taken : (s.withOe l).edgeTaken = s.edgeTaken := rfl
  refine BlindToOe.of_next (g := fun s => if s.edgeTaken then s.takeEdge else s) ?_
  simp only [taken, State.withOe_of_setAside State.takeEdge_setAside, State.ite_withOe]

theorem execProgramCompletion_blindToOe (o : ReadBack) (s : State) (l : PinLevel) : BlindToOe (execProgramCompletion o) s l := by
  refine BlindToOe.of_ite (p := fun s => s.isHeld = true)
    (g := fun s => match s.inFlight with | none => s | some p => s.endProgram p o) Iff.rfl ?_
  have inFlight : (s.withOe l).inFlight = s.inFlight := rfl
  simp only [inFlight]
  cases s.inFlight with
  | none => rfl
  | some p => exact State.withOe_of_setAside (f := fun s => s.endProgram p o) (fun s a => s.endProgram_setAside a p o) s l

theorem execLoadCompletion_blindToOe (s : State) (l : PinLevel) : BlindToOe execLoadCompletion s l := by
  have phase : (s.withOe l).phase = s.phase := rfl
  refine BlindToOe.of_next (g := fun s => if s.phase = .start then s.load else s) ?_
  simp only [phase, State.withOe_of_setAside State.load_setAside, State.ite_withOe]

theorem execResetCondition_blindToOe (cause : HoldCause) (s : State) (l : PinLevel) : BlindToOe (execResetCondition cause) s l := by
  have cut := State.withOe_of_setAside State.cutProgram_setAside s l
  refine BlindToOe.of_next
    (g := fun s => { s.cutProgram with phase := .held (heldCause s cause), sending := none, restarting := false }) ?_
  simp only [cut]
  rfl

theorem execResetBase_blindToOe (r1 r0 : PinLevel) (s : State) (l : PinLevel) : BlindToOe (execResetBase r1 r0) s l := by
  refine BlindToOe.of_next
    (g := fun s => match s.phase with | .held cause => s.base cause (strapRate r1 r0) | _ => s) ?_
  have phase : (s.withOe l).phase = s.phase := rfl
  simp only [phase]
  cases s.phase <;> rfl

theorem execInterByteTimeout_blindToOe (s : State) (l : PinLevel) : BlindToOe execInterByteTimeout s l := by
  refine BlindToOe.of_ite (p := fun s => (s.isHeld || decide (s.receiver = .hunt)) = true)
    (g := fun s => ((s.advanceTo s.timeoutAt).toHunt).offer (rejectFrame s.receiver.sequence .truncated)) Iff.rfl ?_
  exact State.offer_withOe (s.advanceTo s.timeoutAt).toHunt l _

theorem execTransmissionEnd_blindToOe (s : State) (l : PinLevel) : BlindToOe execTransmissionEnd s l := by
  refine BlindToOe.of_ite (p := fun s => s.isHeld = true)
    (g := fun s => match s.sending with | none => s | some x => s.endSending x) Iff.rfl ?_
  have sending : (s.withOe l).sending = s.sending := rfl
  have restarting : (s.withOe l).restarting = s.restarting := rfl
  simp only [sending]
  cases s.sending with
  | none => rfl
  | some x =>
    simp only [State.endSending, restarting]
    split <;> rfl

theorem execLinkReset_blindToOe (s : State) (l : PinLevel) : BlindToOe execLinkReset s l := by
  refine BlindToOe.of_ite (p := fun s => s.isHeld = true)
    (g := fun s => match s.breakDetector with | .timing since => s.resetLink since | _ => s) Iff.rfl ?_
  have breakDetector : (s.withOe l).breakDetector = s.breakDetector := rfl
  simp only [breakDetector]
  cases s.breakDetector <;> rfl

theorem execRxdFalls_blindToOe (s : State) (l : PinLevel) : BlindToOe execRxdFalls s l := by
  have held : (s.withOe l).isHeld = s.isHeld := rfl
  have breakDetector : (s.withOe l).breakDetector = s.breakDetector := rfl
  simp only [BlindToOe, execRxdFalls, held, breakDetector]
  cases s.isHeld <;> cases s.breakDetector <;> rfl

theorem execRxdRises_blindToOe (s : State) (l : PinLevel) : BlindToOe execRxdRises s l := by
  have held : (s.withOe l).isHeld = s.isHeld := rfl
  simp only [BlindToOe, execRxdRises, held]
  cases s.isHeld <;> rfl

theorem execByteReceived_blindToOe (b : Byte) {s : State}
    (h : ∀ q p high, s.receiver ≠ .checkLow q RequestKind.status.code p high) (l : PinLevel) : BlindToOe (execByteReceived b) s l :=
  BlindToOe.of_ite (p := fun s => s.deaf = true) (g := fun s => s.takeByte b) Iff.rfl (s.takeByte_withOe l b h)

/-- Settles O14: OE is no field that a handler but STATUS's, or an event, reads. -/
theorem oeActsOnThePinsAlone : Obligations.OeActsOnThePinsAlone := by
  intro c s l notStatus notOe notLast
  show BlindToOe (exec c) s l
  have request {k : RequestKind} (hk : k ≠ .status) (q : Byte) (p : List Byte) :
      BlindToOe (requestStep k (handlerOf k) q p) s l := requestStep_blindToOe (handlerOf_ignoresAside hk) k q p s l
  have load {f : State → State × Reply} (h : ∀ s a, f (State.setAside s a) = ((f s).1.setAside a, (f s).2))
      (q : Byte) (p : List Byte) :
      BlindToOe (requestStep .storeLoad (fun _ => f) q p) s l := requestStep_blindToOe (fun _ => h) .storeLoad q p s l
  cases c with
  | status q p => exact absurd rfl (notStatus q p)
  | oeChange l' => exact absurd rfl (notOe l')
  | hello q p | fetch q p | restart q p | setProfile q p | setCeiling q p | curveWrite q p | curveRead q p | bind q p
  | trimSet q p | trimSource q p | channelRead q p | setLevel q p | cueLoad q p | cueRead q p | cueClear q p | cueGo q p
  | cueArm q p | cueDisarm q p | cueStop q p | cueStopAll q p | activeRead q p | storeStatus q p | storeProgram q p
  | labelSet q p => exact request (by simp) q p
  | storeLoadCurves q => exact load storeLoadCurves_setAside q [RecordKind.curves.code]
  | storeLoadTrims q => exact load storeLoadTrims_setAside q [RecordKind.trims.code]
  | storeLoadLabel q => exact load storeLoadLabel_setAside q [RecordKind.label.code]
  | storeLoadStartup q => exact load storeLoadStartup_setAside q [RecordKind.startup.code]
  | storeLoadNoRecordKind q p => exact execStoreLoadNoRecordKind_blindToOe q p s l
  | fadeClockExpiry => exact execFadeClockExpiry_blindToOe s l
  | goFallingEdge => exact execGoFallingEdge_blindToOe s l
  | programCompletion o => exact execProgramCompletion_blindToOe o s l
  | loadCompletion => exact execLoadCompletion_blindToOe s l
  | resetCondition cause => exact execResetCondition_blindToOe cause s l
  | resetBase r1 r0 => exact execResetBase_blindToOe r1 r0 s l
  | byteReceived b => exact execByteReceived_blindToOe b (notLast ⟨b, rfl⟩) l
  | framingError => exact BlindToOe.of_next (g := fun s => s) rfl
  | interByteTimeout => exact execInterByteTimeout_blindToOe s l
  | transmissionEnd => exact execTransmissionEnd_blindToOe s l
  | linkReset => exact execLinkReset_blindToOe s l
  | rxdFalls => exact execRxdFalls_blindToOe s l
  | rxdRises => exact execRxdRises_blindToOe s l

end Sys2Proof.Machine
end

section
/-!
The copies of the Active List (R36, R37): what each operation of the Cue Engine makes of them, read copy by copy.
-/
namespace Sys2Proof.Machine

/-! ## The list and its copies -/

/-- The shape of the Active List: at most four instances with distinct ids (R35), each of the shape of R36. -/
structure ListShaped (l : List Instance) : Prop where
  atMostFour : l.length ≤ 4
  idsDistinct : (l.map Instance.id).Nodup
  instancesShaped : ∀ i ∈ l, InstanceShaped i

/-- An instance of the list with this id and this `elapsed` holds the copy. -/
def HoldsCopy (l : List Instance) (id : Byte) (n : Nat) (x : EntryCopy) : Prop :=
  ∃ i ∈ l, i.id = id ∧ i.elapsed = n ∧ x ∈ i.entries

/-- The instance with the id has a FADING entry for the channel. -/
def FadesOn (l : List Instance) (id : Byte) (c : ChannelNo) : Prop :=
  ∃ n x, HoldsCopy l id n x ∧ x.entry.channel = c ∧ x.isFading = true

/-- The copy is WAITING and its delay ends at this `elapsed` (R46 step 4). -/
def IsDue (n : Nat) (x : EntryCopy) : Prop := x.state = .waiting ∧ x.entry.delay = n

/-- The instance with the id has an entry for the channel whose delay ends now. -/
def DueOn (l : List Instance) (id : Byte) (c : ChannelNo) : Prop :=
  ∃ n x, HoldsCopy l id n x ∧ x.entry.channel = c ∧ IsDue n x

/-- An instance with the id holds a copy of the entry, and its `elapsed` stands where the entry's delay ends. -/
def StartsNow (l : List Instance) (id : Byte) (e : CueEntry) : Prop := ∃ x, HoldsCopy l id e.delay x ∧ x.entry = e

/-- The copies of a list each take a state, by the id and the `elapsed` of their instance. -/
def Instance.restate (g : Byte → Nat → EntryCopy → EntryState) (i : Instance) : Instance :=
  { i with entries := i.entries.map fun x => { x with state := g i.id i.elapsed x } }

theorem fadesOn_iff {l : List Instance} {id : Byte} {c : ChannelNo} :
    FadesOn l id c ↔ ∃ i ∈ l, i.id = id ∧ i.fades c = true := by
  constructor
  · rintro ⟨_, x, ⟨i, hi, hid, -, hx⟩, hc, fading⟩
    exact ⟨i, hi, hid, (i.fades_iff c).2 ⟨x, hx, hc, x.isFading_iff.1 fading⟩⟩
  · rintro ⟨i, hi, hid, fades⟩
    obtain ⟨x, hx, hc, fading⟩ := (i.fades_iff c).1 fades
    exact ⟨i.elapsed, x, ⟨i, hi, hid, rfl, hx⟩, hc, x.isFading_iff.2 fading⟩

theorem holdsCopy_restate {l : List Instance} {g : Byte → Nat → EntryCopy → EntryState} {id : Byte} {n : Nat}
    {y : EntryCopy} :
    HoldsCopy (l.map (Instance.restate g)) id n y ↔ ∃ x, HoldsCopy l id n x ∧ y = { x with state := g id n x } := by
  constructor
  · rintro ⟨j, hj, rfl, rfl, hy⟩
    obtain ⟨i, hi, rfl⟩ := List.mem_map.1 hj
    obtain ⟨x, hx, rfl⟩ := List.mem_map.1 hy
    exact ⟨x, ⟨i, hi, rfl, rfl, hx⟩, rfl⟩
  · rintro ⟨x, ⟨i, hi, rfl, rfl, hx⟩, rfl⟩
    exact ⟨i.restate g, List.mem_map_of_mem hi, rfl, rfl, List.mem_map_of_mem hx⟩

theorem StartsNow.restate {l : List Instance} {id : Byte} {e : CueEntry} (h : StartsNow l id e)
    (g : Byte → Nat → EntryCopy → EntryState) : StartsNow (l.map (Instance.restate g)) id e := by
  obtain ⟨x, hx, rfl⟩ := h
  exact ⟨{ x with state := g id x.entry.delay x }, holdsCopy_restate.2 ⟨x, hx, rfl⟩, rfl⟩

theorem fadesOn_restate {l : List Instance} {g : Byte → Nat → EntryCopy → EntryState} {id : Byte} {c : ChannelNo} :
    FadesOn (l.map (Instance.restate g)) id c ↔
      ∃ n x, HoldsCopy l id n x ∧ x.entry.channel = c ∧ ∃ start step, g id n x = .fading start step := by
  constructor
  · rintro ⟨n, y, hy, hc, fading⟩
    obtain ⟨x, hx, rfl⟩ := holdsCopy_restate.1 hy
    exact ⟨n, x, hx, hc, (EntryCopy.isFading_iff _).1 fading⟩
  · rintro ⟨n, x, hx, hc, fading⟩
    exact ⟨n, { x with state := g id n x }, holdsCopy_restate.2 ⟨x, hx, rfl⟩, hc, (EntryCopy.isFading_iff _).2 fading⟩

theorem dueOn_restate {l : List Instance} {g : Byte → Nat → EntryCopy → EntryState} {id : Byte} {c : ChannelNo} :
    DueOn (l.map (Instance.restate g)) id c ↔
      ∃ n x, HoldsCopy l id n x ∧ x.entry.channel = c ∧ g id n x = .waiting ∧ x.entry.delay = n := by
  constructor
  · rintro ⟨n, y, hy, hc, due⟩
    obtain ⟨x, hx, rfl⟩ := holdsCopy_restate.1 hy
    exact ⟨n, x, hx, hc, due⟩
  · rintro ⟨n, x, hx, hc, due⟩
    exact ⟨n, { x with state := g id n x }, holdsCopy_restate.2 ⟨x, hx, rfl⟩, hc, due⟩

/-! ## The shape -/

/-- The shape rests on the roster alone. -/
theorem listShaped_iff {l : List Instance} :
    ListShaped l ↔ (roster l).length ≤ 4 ∧ ((roster l).map Prod.fst).Nodup ∧
      ∀ p ∈ roster l, 1 ≤ p.2.length ∧ p.2.length ≤ 16 ∧ (p.2.map CueEntry.channel).Nodup := by
  constructor
  · rintro ⟨four, ids, shaped⟩
    refine ⟨by simpa [roster] using four, by simpa [roster, Function.comp_def] using ids, fun p hp => ?_⟩
    obtain ⟨i, hi, rfl⟩ := List.mem_map.1 hp
    simpa [InstanceShaped, Function.comp_def] using shaped i hi
  · rintro ⟨four, ids, shaped⟩
    refine ⟨by simpa [roster] using four, by simpa [roster, Function.comp_def] using ids, fun i hi => ?_⟩
    simpa [InstanceShaped, Function.comp_def] using shaped _ (List.mem_map_of_mem hi)

namespace ListShaped

variable {l l' : List Instance}

theorem of_roster (h : ListShaped l) (same : roster l' = roster l) : ListShaped l' := by
  rw [listShaped_iff, same]
  exact listShaped_iff.1 h

theorem restate (h : ListShaped l) (g : Byte → Nat → EntryCopy → EntryState) : ListShaped (l.map (Instance.restate g)) :=
  h.of_roster (by simp [roster, Instance.restate, Function.comp_def])

theorem filter (h : ListShaped l) (p : Instance → Bool) : ListShaped (l.filter p) where
  atMostFour := (List.length_filter_le p l).trans h.atMostFour
  idsDistinct := h.idsDistinct.sublist (List.filter_sublist.map _)
  instancesShaped := fun i hi => h.instancesShaped i (List.mem_filter.1 hi).1

theorem append (h : ListShaped l) {i : Instance} (room : l.length < 4) (fresh : idHeld l i.id = false) (shaped : InstanceShaped i) :
    ListShaped (l ++ [i]) where
  atMostFour := by simpa using room
  idsDistinct := by
    rw [List.map_append, List.nodup_append]
    refine ⟨h.idsDistinct, by simp, fun id hid id' hid' e => ?_⟩
    obtain rfl : id' = i.id := by simpa using hid'
    have held : idHeld l i.id = true := idHeld_iff.2 (List.mem_map.1 (e ▸ hid))
    rw [fresh] at held
    cases held
  instancesShaped := by
    intro j hj
    rcases List.mem_append.1 hj with hj | hj
    · exact h.instancesShaped j hj
    · rw [List.mem_singleton.1 hj]
      exact shaped

/-- The copy for a channel in the instance with an id is one (R24, R35). -/
theorem copy_unique (h : ListShaped l) {id : Byte} {n m : Nat} {x y : EntryCopy} (hx : HoldsCopy l id n x) (hy : HoldsCopy l id m y)
    (hc : x.entry.channel = y.entry.channel) : n = m ∧ x = y := by
  obtain ⟨i, hi, rfl, rfl, hx⟩ := hx
  obtain ⟨j, hj, sameId, rfl, hy⟩ := hy
  obtain rfl := List.inj_on_of_nodup_map h.idsDistinct hj hi sameId
  exact ⟨rfl, List.inj_on_of_nodup_map (h.instancesShaped _ hi).2.2 hx hy hc⟩

end ListShaped

/-! ## Time -/

/-- The place of a copy in its instance's time while the starts of an event are made: a WAITING entry's delay may end just now. -/
def CopyUnderway (n : Nat) (x : EntryCopy) : Prop :=
  match x.state with
  | .waiting => n ≤ x.entry.delay
  | .fading _ step => n = x.entry.delay + step
  | _ => True

theorem copyTimed_iff (n : Nat) (x : EntryCopy) : CopyTimed n x ↔ CopyUnderway n x ∧ ¬ IsDue n x := by
  unfold CopyTimed CopyUnderway IsDue
  cases x.state <;> simp
  omega

/-- An entry that is neither WAITING nor FADING is bound to no time. -/
theorem CopyUnderway.of_ended {n : Nat} {x : EntryCopy} (waiting : x.state ≠ .waiting) (fading : x.isFading = false) :
    CopyUnderway n x := by
  unfold CopyUnderway
  unfold EntryCopy.isFading at fading
  cases h : x.state <;> simp_all

/-- An expiry takes a copy one step on, and its instance's time with it (R46, R47). -/
theorem CopyTimed.stepped {n : Nat} {x : EntryCopy} (h : CopyTimed n x) : CopyUnderway (n + 1) x.stepped := by
  unfold CopyTimed at h
  unfold EntryCopy.stepped CopyUnderway
  cases hs : x.state with
  | waiting => simpa [hs] using h
  | fading start step =>
    rw [hs] at h
    by_cases last : x.entry.fade ≤ step + 1
    · simp [last]
    · simp only [last, if_false]
      omega
  | done | taken | overridden | cut => simp [hs]

end Sys2Proof.Machine
end

section
/-!
The laws of the Cue Engine while an event is carried out (`EngineAtWork`) and at its end (`EngineLaws`), and what an entry's start makes
of them.
-/
namespace Sys2Proof.Machine

/-- The laws of the Cue Engine that hold also between the parts of an event: an entry may be due and an instance finished. -/
structure EngineAtWork (s : State) : Prop where
  list : ListShaped s.active
  nextIdPositive : s.nextId ≠ 0
  recordsShaped : ∀ c : CueIdx, ∀ r ∈ s.cues[c], RecordShaped r
  follows : s.follows.length ≤ 4
  ownership : ∀ (c : ChannelNo) (id : Byte), s.channels[c].owner = some id ↔ FadesOn s.active id c
  underway : ∀ id n x, HoldsCopy s.active id n x → CopyUnderway n x

/-- The laws of the Cue Engine at the end of an event, those of the START phase apart. -/
structure EngineLaws (s : State) : Prop extends EngineAtWork s where
  noneDue : ∀ id c, ¬ DueOn s.active id c
  live : ∀ i ∈ s.active, i.finished = false

/-- The owners and the lists that the laws of the Cue Engine read are the same. -/
structure SameEngine (s t : State) : Prop where
  owners : ∀ c : ChannelNo, t.channels[c].owner = s.channels[c].owner
  active : t.active = s.active
  cues : t.cues = s.cues
  nextId : t.nextId = s.nextId
  follows : t.follows = s.follows

theorem EngineSound.laws {s : State} (h : EngineSound s) : EngineLaws s where
  list := ⟨h.atMostFour, h.idsDistinct, h.instancesShaped⟩
  nextIdPositive := h.nextIdPositive
  recordsShaped := h.recordsShaped
  follows := h.follows
  ownership := fun c id => (h.ownership c id).trans fadesOn_iff.symm
  underway := by
    rintro id n x ⟨i, hi, rfl, rfl, hx⟩
    exact ((copyTimed_iff _ _).1 (h.timed i hi x hx)).1
  noneDue := by
    rintro id c ⟨n, x, ⟨i, hi, rfl, rfl, hx⟩, -, due⟩
    exact ((copyTimed_iff _ _).1 (h.timed i hi x hx)).2 due
  live := h.live

/-- Outside the START phase the laws are those of the lists and the channels (R128). -/
theorem EngineLaws.sound {s : State} (h : EngineLaws s) (hp : s.phase ≠ .start) : EngineSound s where
  atMostFour := h.list.atMostFour
  idsDistinct := h.list.idsDistinct
  nextIdPositive := h.nextIdPositive
  recordsShaped := h.recordsShaped
  instancesShaped := h.list.instancesShaped
  ownership := fun c id => (h.ownership c id).trans fadesOn_iff
  live := h.live
  timed := fun i hi x hx =>
    have holds : HoldsCopy s.active i.id i.elapsed x := ⟨i, hi, rfl, rfl, hx⟩
    (copyTimed_iff _ _).2 ⟨h.underway _ _ x holds, fun due => h.noneDue _ _ ⟨_, x, holds, rfl, due⟩⟩
  follows := h.follows
  startQuiet := fun k => absurd k hp
  startDark := fun k => absurd k hp
  startQueue := fun k => absurd k hp

namespace EngineAtWork

variable {s t : State}

/-- What writes no owner, no record and no instance keeps the laws where it keeps the bounds of the counter and the Follow List. -/
theorem quiet (h : EngineAtWork s) (owners : ∀ c : ChannelNo, t.channels[c].owner = s.channels[c].owner)
    (active : t.active = s.active) (cues : t.cues = s.cues) (nextId : t.nextId ≠ 0) (follows : t.follows.length ≤ 4) :
    EngineAtWork t where
  list := active ▸ h.list
  nextIdPositive := nextId
  recordsShaped := cues ▸ h.recordsShaped
  follows := follows
  ownership := fun c id => by rw [owners, active]; exact h.ownership c id
  underway := active ▸ h.underway

theorem congr (h : EngineAtWork s) (same : SameEngine s t) : EngineAtWork t :=
  h.quiet same.owners same.active same.cues (same.nextId ▸ h.nextIdPositive) (same.follows ▸ h.follows)

end EngineAtWork

/-! ### Entry starts (R43) -/

/-- The states of copies after instance `id` has lost its start on a channel to a newer owner (R43, last row). -/
def lostStart (id : Byte) (c : ChannelNo) (id' : Byte) (_ : Nat) (x : EntryCopy) : EntryState :=
  if id' = id ∧ x.entry.channel = c then .taken else x.state

/-- The states of copies after instance `id` has started its entry for a channel: its own takes `out`, any other's fade there is
TAKEN (R43). -/
def madeStart (id : Byte) (c : ChannelNo) (out : EntryState) (id' : Byte) (_ : Nat) (x : EntryCopy) : EntryState :=
  if x.entry.channel = c then if id' = id then out else if x.isFading then .taken else x.state else x.state

theorem State.setEntry_taken_active (s : State) (id : Byte) (c : ChannelNo) :
    (s.setEntry id c .taken).active = s.active.map (Instance.restate (lostStart id c)) := by
  refine List.map_congr_left fun i _ => ?_
  by_cases hid : i.id = id
  · simp only [hid, if_true, Instance.setEntry, Instance.restate, lostStart, true_and]
    congr 1
    exact List.map_congr_left fun x _ => by split <;> rfl
  · simp [hid, Instance.restate, lostStart]

theorem State.takeOver_setEntry_active (s : State) (id : Byte) (c : ChannelNo) (out : EntryState) :
    ((s.takeOver c).setEntry id c out).active = s.active.map (Instance.restate (madeStart id c out)) := by
  simp only [State.takeOver_eq, State.setEntry_eq_mapActive, State.mapActive_active, List.map_map]
  refine List.map_congr_left fun i _ => ?_
  by_cases hid : i.id = id
  · have mine : (i.losing c).id = id := hid
    simp only [Function.comp, mine, if_true, Instance.losing_setEntry]
    simp only [Instance.setEntry, Instance.restate, madeStart, hid, if_true]
    congr 1
    exact List.map_congr_left fun x _ => by split <;> rfl
  · simp only [Function.comp, if_false, Instance.losing, Instance.restate, madeStart, hid]
    congr 1
    refine List.map_congr_left fun x _ => ?_
    by_cases hc : x.entry.channel = c <;> by_cases fades : x.isFading = true <;> simp [hc, fades]

@[simp] theorem State.takeOver_setEntry_channels (s : State) (id : Byte) (c : ChannelNo) (out : EntryState) :
    ((s.takeOver c).setEntry id c out).channels = s.channels := by
  simp [State.setEntry_eq_mapActive, State.takeOver]

@[simp] theorem State.writeLevel_active (s : State) (c : ChannelNo) (level : Nat) (o : Option Byte) :
    (s.writeLevel c level o).active = s.active := by
  rw [State.writeLevel_eq_mapChannels, State.mapChannels_active]

@[simp] theorem State.writeOwner_active (s : State) (c : ChannelNo) (o : Option Byte) : (s.writeOwner c o).active = s.active := by
  rw [State.writeOwner_eq_mapChannels, State.mapChannels_active]

theorem State.writeLevel_owner (s : State) (c : ChannelNo) (level : Nat) (o : Option Byte) (c' : ChannelNo) :
    (s.writeLevel c level o).channels[c'].owner = if c' = c then o else s.channels[c'].owner := by
  rw [State.writeLevel_eq_mapChannels, State.mapChannels_channels]
  split <;> rfl

theorem State.writeOwner_owner (s : State) (c : ChannelNo) (o : Option Byte) (c' : ChannelNo) :
    (s.writeOwner c o).channels[c'].owner = if c' = c then o else s.channels[c'].owner := by
  rw [State.writeOwner_eq_mapChannels, State.mapChannels_channels]
  split <;> rfl

/-- Where an entry's start is lost, the channel's owner is another instance (R35, R43). -/
theorem EngineAtWork.owner_ne_of_heldByNewer {s : State} (h : EngineAtWork s) {id : Byte} {n : Nat} {x : EntryCopy}
    (hx : HoldsCopy s.active id n x) {c : ChannelNo} (held : s.heldByNewer id c = true) : s.channels[c].owner ≠ some id := by
  obtain ⟨i, hi, rfl, -⟩ := hx
  obtain ⟨older, newer, split⟩ := List.append_of_mem hi
  obtain ⟨j, hj, owner⟩ := (State.heldByNewer_iff split h.list.idsDistinct c).1 held
  obtain ⟨-, apart, -⟩ := ids_of_split (split ▸ h.list.idsDistinct)
  rw [owner]
  exact fun e => apart j hj (Option.some.inj e)

namespace EngineAtWork

variable {s t : State}

/-- A change of the states of copies keeps the laws where the owners follow the fades and every copy stands in its time. -/
theorem restate (h : EngineAtWork s) {g : Byte → Nat → EntryCopy → EntryState}
    (active : t.active = s.active.map (Instance.restate g)) (cues : t.cues = s.cues) (nextId : t.nextId = s.nextId)
    (follows : t.follows = s.follows) (ownership : ∀ (c : ChannelNo) (id : Byte), t.channels[c].owner = some id ↔
      ∃ n x, HoldsCopy s.active id n x ∧ x.entry.channel = c ∧ ∃ start step, g id n x = .fading start step)
    (underway : ∀ id n x, HoldsCopy s.active id n x → CopyUnderway n { x with state := g id n x }) : EngineAtWork t where
  list := active ▸ h.list.restate g
  nextIdPositive := nextId ▸ h.nextIdPositive
  recordsShaped := cues ▸ h.recordsShaped
  follows := follows ▸ h.follows
  ownership := fun c id => by rw [active, fadesOn_restate]; exact ownership c id
  underway := by
    intro id n y hy
    rw [active] at hy
    obtain ⟨x, hx, rfl⟩ := holdsCopy_restate.1 hy
    exact underway id n x hx

/-- The owner of a channel is the instance that fades it. -/
theorem owner_iff (h : EngineAtWork s) (c : ChannelNo) (id : Byte) : s.channels[c].owner = some id ↔
    ∃ n x, HoldsCopy s.active id n x ∧ x.entry.channel = c ∧ ∃ start step, x.state = .fading start step := by
  simp only [h.ownership c id, FadesOn, EntryCopy.isFading_iff]

/-- A start that is lost: the entry was no fade, since its channel's owner is newer (R43). -/
theorem loseStart (h : EngineAtWork s) {id : Byte} {n : Nat} {x : EntryCopy} (hx : HoldsCopy s.active id n x) {c : ChannelNo}
    (held : s.heldByNewer id c = true) : EngineAtWork (s.setEntry id c .taken) := by
  have notOwner := h.owner_ne_of_heldByNewer hx held
  refine h.restate (s.setEntry_taken_active id c) rfl rfl rfl (fun c' id' => ?_) fun id' m y hy => ?_
  · rw [State.setEntry_eq_mapActive, State.mapActive_channels, h.owner_iff]
    refine exists_congr fun m => exists_congr fun y => and_congr_right fun hy => and_congr_right fun hc => ?_
    unfold lostStart
    split
    · rename_i own
      obtain ⟨rfl, rfl⟩ := own
      exact ⟨fun fading => absurd ((h.owner_iff _ _).2 ⟨m, y, hy, rfl, fading⟩) notOwner, by simp⟩
    · rfl
  · unfold lostStart
    split
    · exact .of_ended (by simp) rfl
    · exact h.underway id' m y hy

/-- A start that is made: the entry is DONE and its channel FREE, or it begins to fade and its channel is its instance's (R43). -/
theorem makeStart (h : EngineAtWork s) {id : Byte} {x : EntryCopy} (hx : HoldsCopy s.active id x.entry.delay x)
    {out : EntryState} {o : Option Byte} (hout : out = .done ∧ o = none ∨ ∃ level, out = .fading level 0 ∧ o = some id)
    (active : t.active = s.active.map (Instance.restate (madeStart id x.entry.channel out)))
    (owners : ∀ c : ChannelNo, t.channels[c].owner = if c = x.entry.channel then o else s.channels[c].owner)
    (cues : t.cues = s.cues) (nextId : t.nextId = s.nextId) (follows : t.follows = s.follows) : EngineAtWork t := by
  refine h.restate active cues nextId follows (fun c id' => ?_) fun id' n y hy => ?_
  · rw [owners]
    split
    · rename_i hc
      subst hc
      constructor
      · intro owner
        rcases hout with ⟨-, rfl⟩ | ⟨level, rfl, rfl⟩
        · cases owner
        · cases owner
          exact ⟨_, x, hx, rfl, level, 0, by simp [madeStart]⟩
      · rintro ⟨n, y, hy, hc, start, step, fading⟩
        simp only [madeStart, hc, if_true] at fading
        split at fading
        · rename_i own
          subst own
          rcases hout with ⟨rfl, -⟩ | ⟨level, -, rfl⟩
          · cases fading
          · rfl
        · split at fading
          · cases fading
          · rename_i notFading
            exact absurd (y.isFading_iff.2 ⟨start, step, fading⟩) notFading
    · rename_i other
      rw [h.owner_iff]
      refine exists_congr fun n => exists_congr fun y => and_congr_right fun _ => and_congr_right fun hc => ?_
      rw [madeStart, if_neg (by rw [hc]; exact other)]
  · unfold madeStart
    split
    · rename_i hc
      split
      · rename_i own
        subst own
        obtain ⟨rfl, rfl⟩ := h.list.copy_unique hy hx hc
        rcases hout with ⟨rfl, -⟩ | ⟨level, rfl, -⟩
        · exact .of_ended (by simp) rfl
        · simp [CopyUnderway]
      · split
        · exact .of_ended (by simp) rfl
        · exact h.underway id' n y hy
    · exact h.underway id' n y hy

/-- The start of an entry whose delay ends now keeps the laws (R43). -/
theorem startEntry (h : EngineAtWork s) {id : Byte} {e : CueEntry} (now : StartsNow s.active id e) :
    EngineAtWork (s.startEntry id e) := by
  obtain ⟨x, hx, rfl⟩ := now
  unfold State.startEntry
  split
  · rename_i held
    exact h.loseStart hx held
  · split
    · refine h.makeStart (out := .done) (o := none) hx (.inl ⟨rfl, rfl⟩) ?_ (fun c => ?_) ?_ ?_ ?_
      · rw [State.writeLevel_active, State.takeOver_setEntry_active]
      · rw [State.writeLevel_owner, State.takeOver_setEntry_channels]
      all_goals simp [State.writeLevel_eq_mapChannels, State.setEntry_eq_mapActive, State.takeOver]
    · refine h.makeStart (out := .fading s.channels[x.entry.channel].level 0) (o := some id) hx (.inr ⟨_, rfl, rfl⟩) ?_
        (fun c => ?_) ?_ ?_ ?_
      · rw [State.writeOwner_active, State.takeOver_setEntry_active]
      · rw [State.writeOwner_owner, State.takeOver_setEntry_channels]
      all_goals simp [State.writeOwner_eq_mapChannels, State.setEntry_eq_mapActive, State.takeOver]

end EngineAtWork

/-- What is due after an entry's start was due before, and is another entry. -/
theorem dueOn_startEntry {s : State} {id id' : Byte} {e : CueEntry} {c : ChannelNo} (h : DueOn (s.startEntry id e).active id' c) :
    DueOn s.active id' c ∧ ¬ (id' = id ∧ c = e.channel) := by
  have made (out : EntryState) (acts : out ≠ .waiting)
      (h : DueOn (s.active.map (Instance.restate (madeStart id e.channel out))) id' c) :
      DueOn s.active id' c ∧ ¬ (id' = id ∧ c = e.channel) := by
    obtain ⟨n, x, hx, rfl, waiting, delay⟩ := dueOn_restate.1 h
    by_cases hc : x.entry.channel = e.channel
    · by_cases own : id' = id
      · exact absurd (by simpa [madeStart, hc, own] using waiting) acts
      · by_cases fades : x.isFading = true
        · simp [madeStart, hc, own, fades] at waiting
        · exact ⟨⟨n, x, hx, rfl, by simpa [madeStart, hc, own, fades] using waiting, delay⟩, fun both => own both.1⟩
    · exact ⟨⟨n, x, hx, rfl, by simpa [madeStart, hc] using waiting, delay⟩, fun both => hc both.2⟩
  unfold State.startEntry at h
  split at h
  · rw [State.setEntry_taken_active] at h
    obtain ⟨n, x, hx, rfl, waiting, delay⟩ := dueOn_restate.1 h
    by_cases own : id' = id ∧ x.entry.channel = e.channel
    · simp [lostStart, own] at waiting
    · exact ⟨⟨n, x, hx, rfl, by simpa [lostStart, own] using waiting, delay⟩, own⟩
  · split at h
    · exact made .done (by simp) (by rwa [State.writeLevel_active, State.takeOver_setEntry_active] at h)
    · exact made (.fading s.channels[e.channel].level 0) (by simp)
        (by rwa [State.writeOwner_active, State.takeOver_setEntry_active] at h)

end Sys2Proof.Machine
end

section
/-!
The operations of the Cue Engine under its laws: the starts of an event, the sweep, the launch of an instance, the expiry, stops.
-/
namespace Sys2Proof.Machine

/-! ### Starts one after another -/

/-- A start changes the states of copies alone. -/
theorem State.startEntry_active (s : State) (id : Byte) (e : CueEntry) :
    ∃ g, (s.startEntry id e).active = s.active.map (Instance.restate g) := by
  unfold State.startEntry
  split
  · exact ⟨_, s.setEntry_taken_active id e.channel⟩
  · split
    · exact ⟨_, (State.writeLevel_active _ _ _ _).trans (s.takeOver_setEntry_active id e.channel .done)⟩
    · exact ⟨_, (State.writeOwner_active _ _ _).trans (s.takeOver_setEntry_active id e.channel _)⟩

theorem EngineAtWork.startEntries {s : State} (h : EngineAtWork s) (id : Byte) {es : List CueEntry}
    (now : ∀ e ∈ es, StartsNow s.active id e) : EngineAtWork (s.startEntries id es) := by
  induction es generalizing s with
  | nil => exact h
  | cons e es ih =>
    refine ih (h.startEntry (now e (by simp))) fun e' he' => ?_
    obtain ⟨g, active⟩ := s.startEntry_active id e
    rw [active]
    exact (now e' (by simp [he'])).restate g

theorem dueOn_startEntries {s : State} {id id' : Byte} {es : List CueEntry} {c : ChannelNo}
    (h : DueOn (s.startEntries id es).active id' c) : DueOn s.active id' c ∧ ¬ (id' = id ∧ c ∈ es.map CueEntry.channel) := by
  induction es generalizing s with
  | nil => exact ⟨h, by simp⟩
  | cons e es ih =>
    obtain ⟨later, notLater⟩ := ih h
    obtain ⟨before, notNow⟩ := dueOn_startEntry later
    refine ⟨before, ?_⟩
    rintro ⟨own, hc⟩
    rcases List.mem_cons.1 hc with hc | hc
    · exact notNow ⟨own, hc⟩
    · exact notLater ⟨own, hc⟩

/-! ### The Follow List and the counter under the reports of the engine -/

@[simp] theorem State.handOff_nextId (s : State) (c : CueIdx) : (s.handOff c).nextId = s.nextId := by
  unfold State.handOff; split <;> simp

@[simp] theorem State.complete_nextId (s : State) (i : Instance) : (s.complete i).nextId = s.nextId := by
  unfold State.complete; split <;> simp

@[simp] theorem State.announce_nextId (s : State) (i : Instance) : (s.announce i).nextId = s.nextId := by
  unfold State.announce; split <;> simp

@[simp] theorem State.announce_follows (s : State) (i : Instance) : (s.announce i).follows = s.follows := by
  unfold State.announce; split <;> simp

/-- A follow start that finds four waiting is dropped (R72). -/
theorem State.handOff_follows_le {s : State} (h : s.follows.length ≤ 4) (c : CueIdx) : (s.handOff c).follows.length ≤ 4 := by
  unfold State.handOff
  split
  · rename_i room
    have : s.follows.length < 4 := room
    simpa using this
  · simpa using h

theorem State.complete_follows_le {s : State} (h : s.follows.length ≤ 4) (i : Instance) :
    (s.complete i).follows.length ≤ 4 := by
  unfold State.complete
  split
  · exact State.handOff_follows_le (by simpa using h) _
  · simpa using h

namespace EngineLaws

variable {s t : State}

theorem quiet (h : EngineLaws s) (owners : ∀ c : ChannelNo, t.channels[c].owner = s.channels[c].owner)
    (active : t.active = s.active) (cues : t.cues = s.cues) (nextId : t.nextId ≠ 0) (follows : t.follows.length ≤ 4) :
    EngineLaws t where
  toEngineAtWork := h.toEngineAtWork.quiet owners active cues nextId follows
  noneDue := active ▸ h.noneDue
  live := active ▸ h.live

theorem congr (h : EngineLaws s) (same : SameEngine s t) : EngineLaws t :=
  h.quiet same.owners same.active same.cues (same.nextId ▸ h.nextIdPositive) (same.follows ▸ h.follows)

theorem report (h : EngineLaws s) (b : ReportBody) : EngineLaws (s.report b) :=
  h.congr ⟨by simp, by simp, by simp, by simp, by simp⟩

theorem complete (h : EngineLaws s) (i : Instance) : EngineLaws (s.complete i) :=
  h.quiet (by simp) (by simp) (CueWork.complete s i).cues (by simpa using h.nextIdPositive) (State.complete_follows_le h.follows i)

end EngineLaws

/-- A finished instance fades nothing (R51). -/
theorem Instance.finished_eq_false_of_fading {i : Instance} {x : EntryCopy} (hx : x ∈ i.entries) (fading : x.isFading = true) :
    i.finished = false := by
  obtain ⟨start, step, hs⟩ := x.isFading_iff.1 fading
  rw [Instance.finished_eq, Bool.not_eq_false', List.any_eq_true]
  exact ⟨x, hx, by simp [EntryCopy.isLive, hs]⟩

/-- What is held after instances have left the list was held before. -/
theorem HoldsCopy.of_filter {l : List Instance} {p : Instance → Bool} {id : Byte} {n : Nat} {x : EntryCopy}
    (h : HoldsCopy (l.filter p) id n x) : HoldsCopy l id n x := by
  obtain ⟨i, hi, rest⟩ := h
  exact ⟨i, (List.mem_filter.1 hi).1, rest⟩

/-- The sweep ends an event: the finished instances own nothing, and leave (R51, R52). -/
theorem EngineAtWork.sweep {s : State} (h : EngineAtWork s) (noneDue : ∀ id c, ¬ DueOn s.active id c) : EngineLaws s.sweep := by
  have dropped : EngineLaws s.dropFinished :=
    { list := h.list.filter _
      nextIdPositive := h.nextIdPositive
      recordsShaped := h.recordsShaped
      follows := h.follows
      ownership := fun c id => by
        refine (h.ownership c id).trans ⟨?_, ?_⟩
        · rintro ⟨n, x, ⟨i, hi, hid, hn, hx⟩, hc, fading⟩
          have stays : i ∈ s.dropFinished.active :=
            List.mem_filter.2 ⟨hi, by rw [Instance.finished_eq_false_of_fading hx fading]; rfl⟩
          exact ⟨n, x, ⟨i, stays, hid, hn, hx⟩, hc, fading⟩
        · rintro ⟨n, x, hx, rest⟩
          exact ⟨n, x, hx.of_filter, rest⟩
      underway := fun id n x hx => h.underway id n x hx.of_filter
      noneDue := fun id c ⟨n, x, hx, rest⟩ => noneDue id c ⟨n, x, hx.of_filter, rest⟩
      live := fun i hi => by simpa using (List.mem_filter.1 hi).2 }
  exact List.foldlRecOn _ _ dropped fun u hu i _ => hu.complete i

/-! ### The launch of an instance (R39, R41) -/

/-- An instance before its first starts: WAITING, at the beginning of its time (R36, R37). -/
def Unstarted (i : Instance) : Prop := i.elapsed = 0 ∧ ∀ x ∈ i.entries, x.state = .waiting

/-- The joining instance stands at the tail, its entries with delay 0 due (R39 step 3). -/
theorem EngineLaws.join {s : State} (h : EngineLaws s) {i : Instance} (room : s.active.length < 4)
    (fresh : idHeld s.active i.id = false) (shaped : InstanceShaped i) (unstarted : Unstarted i) : EngineAtWork (s.join i) where
  list := h.list.append room fresh shaped
  nextIdPositive := h.nextIdPositive
  recordsShaped := h.recordsShaped
  follows := h.follows
  ownership := fun c id => by
    refine (h.ownership c id).trans ⟨?_, ?_⟩
    · rintro ⟨n, x, ⟨j, hj, holds⟩, rest⟩
      exact ⟨n, x, ⟨j, List.mem_append_left _ hj, holds⟩, rest⟩
    · rintro ⟨n, x, ⟨j, hj, hid, hn, hx⟩, hc, fading⟩
      rcases List.mem_append.1 hj with hj | hj
      · exact ⟨n, x, ⟨j, hj, hid, hn, hx⟩, hc, fading⟩
      · rw [List.mem_singleton.1 hj] at hx
        rw [EntryCopy.isFading, unstarted.2 x hx] at fading
        cases fading
  underway := by
    rintro id n x ⟨j, hj, rfl, rfl, hx⟩
    rcases List.mem_append.1 hj with hj | hj
    · exact h.underway _ _ x ⟨j, hj, rfl, rfl, hx⟩
    · obtain rfl := List.mem_singleton.1 hj
      simp [CopyUnderway, unstarted.2 x hx, unstarted.1]

/-- What is due when an instance joins is an entry of it that starts at once. -/
theorem EngineLaws.dueOn_join {s : State} (h : EngineLaws s) {i : Instance} (unstarted : Unstarted i) {id : Byte} {c : ChannelNo}
    (due : DueOn (s.join i).active id c) : id = i.id ∧ c ∈ i.atOnce.map CueEntry.channel := by
  obtain ⟨n, x, ⟨j, hj, rfl, rfl, hx⟩, rfl, waiting, delay⟩ := due
  rcases List.mem_append.1 hj with hj | hj
  · exact absurd ⟨_, x, ⟨j, hj, rfl, rfl, hx⟩, rfl, waiting, delay⟩ (h.noneDue j.id x.entry.channel)
  · obtain rfl := List.mem_singleton.1 hj
    refine ⟨rfl, List.mem_map_of_mem (List.mem_filter.2 ⟨List.mem_map_of_mem hx, ?_⟩)⟩
    simp [delay, unstarted.1]

/-- The entries that start at once are at the end of their delay. -/
theorem startsNow_atOnce {s : State} {i : Instance} (unstarted : Unstarted i) {e : CueEntry} (he : e ∈ i.atOnce) :
    StartsNow (s.join i).active i.id e := by
  obtain ⟨he, delay⟩ := List.mem_filter.1 he
  obtain ⟨x, hx, rfl⟩ := List.mem_map.1 he
  refine ⟨x, ⟨i, by simp, rfl, ?_, hx⟩, rfl⟩
  rw [unstarted.1, of_decide_eq_true delay]

/-- A launch starts what is due of the joining instance, and sweeps (R39). -/
theorem EngineLaws.launch {s : State} (h : EngineLaws s) {i : Instance} (room : s.active.length < 4)
    (fresh : idHeld s.active i.id = false) (shaped : InstanceShaped i) (unstarted : Unstarted i) : EngineLaws (s.launch i) := by
  have announced : EngineAtWork ((s.join i).announce i) :=
    (h.join room fresh shaped unstarted).congr
      ⟨by simp, by simp, (CueWork.announce _ i).cues, by simp, by simp⟩
  have sameActive : ((s.join i).announce i).active = (s.join i).active := State.announce_active _ i
  have started : EngineAtWork (((s.join i).announce i).startEntries i.id i.atOnce) :=
    announced.startEntries i.id fun e he => sameActive ▸ startsNow_atOnce unstarted he
  refine started.sweep fun id c due => ?_
  obtain ⟨before, notStarted⟩ := dueOn_startEntries due
  exact notStarted (h.dueOn_join unstarted (sameActive ▸ before))

/-! ### Starts by cue and by scene (R38, R39, R41) -/

theorem nextIdAfter_ne_zero : ∀ id : Byte, nextIdAfter id ≠ 0 := by decide

theorem unstarted_copies (es : List CueEntry) : ∀ x ∈ es.map waitingCopy, x.state = .waiting := by
  intro x hx
  obtain ⟨e, -, rfl⟩ := List.mem_map.1 hx
  rfl

/-- The shape of an instance is that of its entries (R36). -/
theorem instanceShaped_iff (i : Instance) : InstanceShaped i ↔ 1 ≤ (i.entries.map EntryCopy.entry).length ∧
    (i.entries.map EntryCopy.entry).length ≤ 16 ∧ ((i.entries.map EntryCopy.entry).map CueEntry.channel).Nodup := by
  simp [InstanceShaped, Function.comp_def]

theorem instanceShaped_newInstance {r : CueRecord} (h : RecordShaped r) (id : Byte) (c : CueIdx) (source : StartSource) :
    InstanceShaped (newInstance id c source r) := by
  rw [instanceShaped_iff, entries_newInstance]
  exact h

theorem instanceShaped_sceneInstance (x : Scene) : InstanceShaped (sceneInstance x) := by
  rw [instanceShaped_iff, entries_sceneInstance, sceneEntries_channels]
  exact ⟨by simp [sceneEntries], by simp [sceneEntries], List.nodup_finRange 16⟩

namespace EngineLaws

variable {s t : State}

theorem startCue (h : EngineLaws s) {c : CueIdx} {r : CueRecord} (source : StartSource) (accepted : s.startRefusal c = none)
    (hr : s.cues[c] = some r) : EngineLaws (s.startCue c source r) := by
  have room := State.room_of_startRefusal accepted
  have idTaken : EngineLaws s.takeId := h.quiet (fun _ => rfl) rfl rfl (nextIdAfter_ne_zero _) h.follows
  exact idTaken.launch room (State.issueId_free room) (instanceShaped_newInstance (h.recordsShaped c r hr) _ _ _)
    ⟨rfl, unstarted_copies r.entries⟩

theorem startScene (h : EngineLaws s) (x : Scene) (room : s.active.length < 4) (fresh : idHeld s.active 0 = false) :
    EngineLaws (s.startScene x) :=
  h.launch room fresh (instanceShaped_sceneInstance x) ⟨rfl, unstarted_copies _⟩

theorem startReported (h : EngineLaws s) (c : CueIdx) (source : StartSource) : EngineLaws (s.startReported c source) := by
  unfold State.startReported
  split
  · exact h.startCue source ‹_› ‹_›
  · exact h
  · exact h.report _

/-- A follow start leaves the Follow List before it is made (R73). -/
theorem serveOne (h : EngineLaws s) : EngineLaws s.serveOne := by
  have dropped : EngineLaws s.dropFollow :=
    h.quiet (fun _ => rfl) rfl rfl h.nextIdPositive ((by simp [State.dropFollow] : _ ≤ s.follows.length).trans h.follows)
  unfold State.serveOne
  split
  · exact h
  · exact dropped.startReported _ _

theorem serve (n : Nat) (h : EngineLaws s) : EngineLaws (State.serve n s) := by
  induction n generalizing s with
  | zero => exact h
  | succ n ih => exact ih h.serveOne

end EngineLaws

/-! ### The step of the fades and of time (R46, R47) -/

@[simp] theorem EntryCopy.stepped_entry (x : EntryCopy) : x.stepped.entry = x.entry := by
  unfold EntryCopy.stepped
  split <;> rfl

/-- After its step a fade goes on, unless the step was its final one (R47). -/
theorem EntryCopy.isFading_stepped (x : EntryCopy) :
    x.stepped.isFading = true ↔ ∃ start step, x.state = .fading start step ∧ ¬ x.entry.fade ≤ step + 1 := by
  cases hs : x.state with
  | fading start step =>
    rw [EntryCopy.stepped_fading hs]
    by_cases last : x.entry.fade ≤ step + 1 <;> simp [EntryCopy.isFading, last]
    omega
  | waiting | done | taken | overridden | cut => simp [EntryCopy.stepped, EntryCopy.isFading, hs]

theorem holdsCopy_advanced {s : State} {id : Byte} {m : Nat} {y : EntryCopy} :
    HoldsCopy s.stepFades.advanceElapsed.active id m y ↔ ∃ n x, HoldsCopy s.active id n x ∧ m = n + 1 ∧ y = x.stepped := by
  rw [State.advanceElapsed_eq_mapActive, State.mapActive_active, State.stepFades_active, List.map_map]
  constructor
  · rintro ⟨j, hj, rfl, rfl, hy⟩
    obtain ⟨i, hi, rfl⟩ := List.mem_map.1 hj
    obtain ⟨x, hx, rfl⟩ := List.mem_map.1 hy
    exact ⟨_, x, ⟨i, hi, rfl, rfl, hx⟩, rfl, rfl⟩
  · rintro ⟨n, x, ⟨i, hi, rfl, rfl, hx⟩, rfl, rfl⟩
    exact ⟨_, List.mem_map_of_mem hi, rfl, rfl, List.mem_map_of_mem hx⟩

@[simp] theorem State.advanceElapsed_channels (s : State) : s.advanceElapsed.channels = s.channels := by
  rw [State.advanceElapsed_eq_mapActive, State.mapActive_channels]

/-- The step of its fade frees a channel exactly when it is the final one (R47). -/
theorem EngineSound.stepChannel_owner {s : State} (h : EngineSound s) (c : ChannelNo) (id : Byte) :
    (s.stepChannel c s.channels[c]).owner = some id ↔ ∃ n x, HoldsCopy s.active id n x ∧ x.entry.channel = c ∧
      x.stepped.isFading = true := by
  constructor
  · intro owner
    have before : s.channels[c].owner = some id := by
      cases found : fadingOn s.active c with
      | none => rwa [State.stepChannel_none found] at owner
      | some y =>
        rw [State.stepChannel_fading (x := y.1) (start := y.2.1) (step := y.2.2) found] at owner
        dsimp only [State.recoded] at owner
        split at owner
        · cases owner
        · exact owner
    obtain ⟨n, x, hx, rfl, start, step, fading⟩ := (h.laws.owner_iff c id).1 before
    refine ⟨n, x, hx, rfl, x.isFading_stepped.2 ⟨start, step, fading, fun last => ?_⟩⟩
    obtain ⟨i, hi, -, -, hx⟩ := hx
    rw [State.stepChannel_fading (h.fadingOn_eq hi hx fading)] at owner
    simp [State.recoded, last] at owner
  · rintro ⟨n, x, ⟨i, hi, rfl, -, hx⟩, rfl, goesOn⟩
    obtain ⟨start, step, fading, notLast⟩ := x.isFading_stepped.1 goesOn
    rw [State.stepChannel_fading (h.fadingOn_eq hi hx fading)]
    simpa [State.recoded, notLast] using h.owner_of_fading hi hx rfl fading

/-- Steps 2 and 3 of an expiry keep the laws of an event that is carried out (R46, R47). -/
theorem EngineSound.stepFades {s : State} (h : EngineSound s) : EngineAtWork s.stepFades.advanceElapsed where
  list := by
    refine h.laws.list.of_roster ?_
    rw [State.advanceElapsed_eq_mapActive, State.mapActive_active, State.stepFades_active]
    simp [roster, Function.comp_def]
  nextIdPositive := by
    rw [State.advanceElapsed_eq_mapActive, State.mapActive_nextId, State.stepFades, State.mapActive_nextId,
      State.mapChannels_nextId]
    exact h.nextIdPositive
  recordsShaped := by
    rw [State.advanceElapsed_eq_mapActive, State.mapActive_cues, State.stepFades, State.mapActive_cues, State.mapChannels_cues]
    exact h.recordsShaped
  follows := by
    rw [State.advanceElapsed_eq_mapActive, State.mapActive_follows, State.stepFades, State.mapActive_follows,
      State.mapChannels_follows]
    exact h.follows
  ownership := fun c id => by
    rw [State.advanceElapsed_channels, State.stepFades_channels, h.stepChannel_owner]
    constructor
    · rintro ⟨n, x, hx, hc, fading⟩
      exact ⟨n + 1, x.stepped, holdsCopy_advanced.2 ⟨n, x, hx, rfl, rfl⟩, by simpa using hc, fading⟩
    · rintro ⟨m, y, hy, hc, fading⟩
      obtain ⟨n, x, hx, rfl, rfl⟩ := holdsCopy_advanced.1 hy
      exact ⟨n, x, hx, by simpa using hc, fading⟩
  underway := by
    intro id m y hy
    obtain ⟨n, x, ⟨i, hi, rfl, rfl, hx⟩, rfl, rfl⟩ := holdsCopy_advanced.1 hy
    exact (h.timed i hi x hx).stepped

/-! ### The starts of an expiry (R48) -/

/-- The states of copies after those due on a channel have lost to instance `id` (R48). -/
def lostDue (id : Byte) (c : ChannelNo) (id' : Byte) (n : Nat) (x : EntryCopy) : EntryState :=
  if id' ≠ id ∧ x.entry.channel = c ∧ x.state = .waiting ∧ x.entry.delay = n then .taken else x.state

/-- The state in which every instance but `id` has lost its due entry for a channel (R48). -/
def State.loseDue (s : State) (id : Byte) (c : ChannelNo) : State := s.mapActive fun i => if i.id = id then i else i.loseDue c

theorem State.loseDue_active (s : State) (id : Byte) (c : ChannelNo) :
    (s.loseDue id c).active = s.active.map (Instance.restate (lostDue id c)) := by
  refine List.map_congr_left fun i _ => ?_
  by_cases hid : i.id = id
  · subst hid
    simp [Instance.restate, lostDue]
  · simp only [hid, if_false, Instance.loseDue, Instance.restate, lostDue, Instance.entryDue, Bool.and_eq_true, decide_eq_true_eq,
      ne_eq, not_false_eq_true, true_and]
    congr 1
    exact List.map_congr_left fun x _ => by split <;> rfl

theorem Instance.dueOn_eq_some {i : Instance} {c : ChannelNo} {e : CueEntry} (h : i.dueOn c = some e) :
    e.channel = c ∧ e.delay = i.elapsed ∧ ∃ x ∈ i.entries, x.entry = e := by
  obtain ⟨x, found, rfl⟩ := Option.map_eq_some_iff.1 h
  have due := List.find?_some found
  simp only [Instance.entryDue, Bool.and_eq_true, decide_eq_true_eq] at due
  obtain ⟨hc, -, delay⟩ := due
  exact ⟨hc, delay, x, List.mem_of_find?_eq_some found, rfl⟩

theorem Instance.dueOn_isSome {i : Instance} {x : EntryCopy} (hx : x ∈ i.entries) (due : IsDue i.elapsed x) :
    (i.dueOn x.entry.channel).isSome = true := by
  rw [Instance.dueOn, Option.isSome_map, List.find?_isSome]
  exact ⟨x, hx, by simp [Instance.entryDue, due.1, due.2]⟩

/-- What step 4 of an expiry does on a channel: nothing where nothing is due, or the start of one due entry when every
other instance has lost its own (R48). -/
theorem State.startDueOn_cases (s : State) (c : ChannelNo) :
    (s.startDueOn c = s ∧ ∀ id, ¬ DueOn s.active id c) ∨
      ∃ i ∈ s.active, ∃ x ∈ i.entries, x.entry.channel = c ∧ x.entry.delay = i.elapsed ∧
        s.startDueOn c = (s.loseDue i.id c).startEntry i.id x.entry := by
  unfold State.startDueOn
  split
  · rename_i noneDue
    refine .inl ⟨rfl, ?_⟩
    rintro id ⟨n, x, ⟨i, hi, rfl, rfl, hx⟩, rfl, due⟩
    have notDue := List.filter_eq_nil_iff.1 (List.getLast?_eq_none_iff.1 noneDue) i hi
    exact notDue (Instance.dueOn_isSome hx due)
  · rename_i newest last
    obtain ⟨hi, isSome⟩ := List.mem_filter.1 (List.mem_of_getLast? last)
    split
    · rename_i none
      rw [none] at isSome
      cases isSome
    · rename_i e he
      obtain ⟨hc, delay, x, hx, rfl⟩ := Instance.dueOn_eq_some he
      exact .inr ⟨newest, hi, x, hx, hc, delay, rfl⟩

namespace EngineAtWork

variable {s : State}

/-- An entry that loses was WAITING: no fade ends with it (R48). -/
theorem loseDue (h : EngineAtWork s) (id : Byte) (c : ChannelNo) : EngineAtWork (s.loseDue id c) := by
  refine h.restate (s.loseDue_active id c) (by simp [State.loseDue]) (by simp [State.loseDue]) (by simp [State.loseDue])
    (fun c' id' => ?_) fun id' n x hx => ?_
  · rw [State.loseDue, State.mapActive_channels, h.owner_iff]
    refine exists_congr fun n => exists_congr fun x => and_congr_right fun _ => and_congr_right fun _ => ?_
    unfold lostDue
    split
    · rename_i lost
      simp [lost.2.2.1]
    · rfl
  · unfold lostDue
    split
    · exact .of_ended (by simp) rfl
    · exact h.underway id' n x hx

/-- The starts on a channel keep the laws, and leave nothing due there and nothing newly due elsewhere (R48). -/
theorem startDueOn (h : EngineAtWork s) (c : ChannelNo) : EngineAtWork (s.startDueOn c) ∧
    ∀ id c', DueOn (s.startDueOn c).active id c' → DueOn s.active id c' ∧ c' ≠ c := by
  rcases s.startDueOn_cases c with ⟨same, noneDue⟩ | ⟨i, hi, x, hx, rfl, delay, started⟩
  · rw [same]
    exact ⟨h, fun id c' due => ⟨due, fun e => noneDue id (e ▸ due)⟩⟩
  · rw [started]
    have now : StartsNow s.active i.id x.entry := ⟨x, ⟨i, hi, rfl, delay.symm, hx⟩, rfl⟩
    refine ⟨(h.loseDue i.id x.entry.channel).startEntry (by rw [State.loseDue_active]; exact now.restate _), ?_⟩
    intro id c' due
    obtain ⟨due, notStarted⟩ := dueOn_startEntry due
    rw [State.loseDue_active] at due
    obtain ⟨n, y, hy, rfl, waiting, hn⟩ := dueOn_restate.1 due
    unfold lostDue at waiting
    split at waiting
    · cases waiting
    · rename_i kept
      refine ⟨⟨n, y, hy, rfl, waiting, hn⟩, fun hc => ?_⟩
      by_cases own : id = i.id
      · exact notStarted ⟨own, hc⟩
      · exact kept ⟨own, hc, waiting, hn⟩

/-- The starts of several channels, one after another (R48). -/
theorem startDueOn_list (h : EngineAtWork s) (cs : List ChannelNo) : EngineAtWork (cs.foldl State.startDueOn s) ∧
    ∀ id c, DueOn (cs.foldl State.startDueOn s).active id c → DueOn s.active id c ∧ c ∉ cs := by
  induction cs generalizing s with
  | nil => exact ⟨h, fun id c due => ⟨due, by simp⟩⟩
  | cons d cs ih =>
    obtain ⟨started, left⟩ := h.startDueOn d
    obtain ⟨atWork, leftLater⟩ := ih started
    refine ⟨atWork, fun id c due => ?_⟩
    obtain ⟨later, notLater⟩ := leftLater id c due
    obtain ⟨before, notNow⟩ := left id c later
    exact ⟨before, by simp [notNow, notLater]⟩

/-- After the starts of an expiry nothing is due (R48). -/
theorem startDue (h : EngineAtWork s) : EngineAtWork s.startDue ∧ ∀ id c, ¬ DueOn s.startDue.active id c := by
  obtain ⟨atWork, left⟩ := h.startDueOn_list (List.finRange 16)
  exact ⟨atWork, fun id c due => (left id c due).2 (List.mem_finRange c)⟩

end EngineAtWork

/-- Steps 2 to 5 of an expiry (R46). -/
theorem EngineSound.cueWork {s : State} (h : EngineSound s) : EngineLaws s.cueWork := by
  unfold State.cueWork
  split
  · obtain ⟨started, noneDue⟩ := h.stepFades.startDue
    exact started.sweep noneDue
  · exact h.laws

/-! ### Stops (R54, R56, R57) -/

@[simp] theorem State.stopInstance_active (s : State) (i : Instance) :
    (s.stopInstance i).active = s.active.filter fun j => decide (j.id ≠ i.id) := by
  simp [State.stopInstance, State.removeInstance, State.releaseFades]

theorem State.stopInstance_owner (s : State) (i : Instance) (c : ChannelNo) :
    (s.stopInstance i).channels[c].owner = if i.fades c then none else s.channels[c].owner := by
  have released : (s.stopInstance i).channels = (s.releaseFades i).channels := by
    simp [State.stopInstance, State.removeInstance]
  rw [released, State.releaseFades, State.mapChannels_channels]
  split <;> rfl

@[simp] theorem State.stopInstance_nextId (s : State) (i : Instance) : (s.stopInstance i).nextId = s.nextId := by
  simp [State.stopInstance, State.removeInstance, State.releaseFades]

@[simp] theorem State.stopInstance_follows (s : State) (i : Instance) : (s.stopInstance i).follows = s.follows := by
  simp [State.stopInstance, State.removeInstance, State.releaseFades]

/-- The fades of a stopped instance let their channels go, and it leaves (R56). -/
theorem EngineLaws.stopInstance {s : State} (h : EngineLaws s) {i : Instance} (hi : i ∈ s.active) :
    EngineLaws (s.stopInstance i) where
  list := by rw [State.stopInstance_active]; exact h.list.filter _
  nextIdPositive := by rw [State.stopInstance_nextId]; exact h.nextIdPositive
  recordsShaped := by rw [(CueWork.stopInstance s i).cues]; exact h.recordsShaped
  follows := by rw [State.stopInstance_follows]; exact h.follows
  ownership := fun c id => by
    have mine : i.fades c = true → s.channels[c].owner = some i.id := fun fades =>
      (h.ownership c i.id).2 (fadesOn_iff.2 ⟨i, hi, rfl, fades⟩)
    rw [State.stopInstance_owner, State.stopInstance_active, fadesOn_iff]
    constructor
    · intro owner
      split at owner
      · cases owner
      · rename_i notMine
        obtain ⟨j, hj, hid, fades⟩ := fadesOn_iff.1 ((h.ownership c id).1 owner)
        refine ⟨j, List.mem_filter.2 ⟨hj, decide_eq_true fun same => ?_⟩, hid, fades⟩
        exact notMine (List.inj_on_of_nodup_map h.list.idsDistinct hj hi same ▸ fades)
    · rintro ⟨j, hj, rfl, fades⟩
      obtain ⟨hj, other⟩ := List.mem_filter.1 hj
      have owner := (h.ownership c j.id).2 (fadesOn_iff.2 ⟨j, hj, rfl, fades⟩)
      split
      · rename_i fadesToo
        exact absurd (Option.some.inj (owner.symm.trans (mine fadesToo))) (of_decide_eq_true other)
      · exact owner
  underway := by rw [State.stopInstance_active]; exact fun id n x hx => h.underway id n x hx.of_filter
  noneDue := by rw [State.stopInstance_active]; exact fun id c ⟨n, x, hx, rest⟩ => h.noneDue id c ⟨n, x, hx.of_filter, rest⟩
  live := by rw [State.stopInstance_active]; exact fun j hj => h.live j (List.mem_filter.1 hj).1

/-- Instances of the list are stopped one after another (R57). -/
theorem EngineLaws.stopList {s : State} (h : EngineLaws s) {l : List Instance} (present : ∀ i ∈ l, i ∈ s.active)
    (ids : (l.map Instance.id).Nodup) : EngineLaws (l.foldl State.stopInstance s) := by
  induction l generalizing s with
  | nil => exact h
  | cons i l ih =>
    obtain ⟨notAgain, ids⟩ := List.nodup_cons.1 ids
    refine ih (h.stopInstance (present i (by simp))) (fun j hj => ?_) ids
    rw [State.stopInstance_active, List.mem_filter]
    exact ⟨present j (by simp [hj]), decide_eq_true fun same => notAgain (same ▸ List.mem_map_of_mem hj)⟩

theorem EngineLaws.stopAll {s : State} (h : EngineLaws s) : EngineLaws (s.active.foldl State.stopInstance s).clearFollows := by
  have stopped := h.stopList (fun i hi => hi) h.list.idsDistinct
  exact stopped.quiet (fun _ => rfl) rfl rfl stopped.nextIdPositive (by simp [State.clearFollows])

/-- The states of copies after SET_LEVEL: the fades on the selected channels are OVERRIDDEN (R54). -/
def overriddenBy (mask : Half) (_ : Byte) (_ : Nat) (x : EntryCopy) : EntryState :=
  if selects mask x.entry.channel && x.isFading then .overridden else x.state

theorem Instance.endFades_eq_restate (mask : Half) (i : Instance) :
    i.endFades (fun c => selects mask c) .overridden = i.restate (overriddenBy mask) := by
  simp only [Instance.endFades, Instance.restate, overriddenBy]
  congr 1
  exact List.map_congr_left fun x _ => by split <;> rfl

theorem State.levelled_owner (s : State) (mask : Half) (level : Nat) (c : ChannelNo) :
    (s.levelled mask level).channels[c].owner = if selects mask c then none else s.channels[c].owner := by
  rw [State.levelled, State.mapSelected_eq_mapChannels, State.mapChannels_channels]
  split <;> rfl

/-- SET_LEVEL frees the selected channels and ends the fades on them, and sweeps (R54). -/
theorem EngineLaws.setLevel {s : State} (h : EngineLaws s) (mask : Half) (level : Nat) : EngineLaws (setLevel mask level s).1 := by
  rw [setLevel_state, funext (Instance.endFades_eq_restate mask)]
  have active : ((s.levelled mask level).mapActive (Instance.restate (overriddenBy mask))).active =
      s.active.map (Instance.restate (overriddenBy mask)) := by
    simp [State.levelled, State.mapSelected_eq_mapChannels]
  refine EngineAtWork.sweep (h.restate active ?_ ?_ ?_ (fun c id => ?_) fun id n x hx => ?_) fun id c due => ?_
  · simp [State.levelled, State.mapSelected_eq_mapChannels]
  · simp [State.levelled, State.mapSelected_eq_mapChannels]
  · simp [State.levelled, State.mapSelected_eq_mapChannels]
  · rw [State.mapActive_channels, State.levelled_owner]
    split
    · rename_i selected
      refine ⟨fun k => (by cases k), ?_⟩
      rintro ⟨n, x, -, rfl, start, step, fading⟩
      unfold overriddenBy at fading
      split at fading
      · cases fading
      · rename_i kept
        exact absurd (by simp [selected, x.isFading_iff, fading]) kept
    · rename_i other
      rw [h.owner_iff]
      refine exists_congr fun n => exists_congr fun x => and_congr_right fun _ => and_congr_right fun hc => ?_
      simp [overriddenBy, hc, other]
  · unfold overriddenBy
    split
    · exact .of_ended (by simp) rfl
    · exact h.underway id n x hx
  · rw [active] at due
    obtain ⟨n, x, hx, hc, waiting, delay⟩ := dueOn_restate.1 due
    unfold overriddenBy at waiting
    split at waiting
    · cases waiting
    · exact h.noneDue id c ⟨n, x, hx, hc, waiting, delay⟩

end Sys2Proof.Machine
end

section
/-!
The laws of the Cue Engine under every command (R24, R35, R36, R38, R42, R46, R51, R71, R120, R126, R128).
-/
namespace Sys2Proof.Machine

/-! ## What the laws do not read -/

namespace SameEngine

variable {s t u : State}

theorem of_channels (channels : t.channels = s.channels) (active : t.active = s.active) (cues : t.cues = s.cues)
    (nextId : t.nextId = s.nextId) (follows : t.follows = s.follows) : SameEngine s t :=
  ⟨fun c => by rw [channels], active, cues, nextId, follows⟩

theorem trans (h : SameEngine s t) (k : SameEngine t u) : SameEngine s u :=
  ⟨fun c => (k.owners c).trans (h.owners c), k.active.trans h.active, k.cues.trans h.cues, k.nextId.trans h.nextId,
    k.follows.trans h.follows⟩

theorem mapChannels (s : State) (f : ChannelNo → Channel → Channel) (hf : ∀ c ch, (f c ch).owner = ch.owner) :
    SameEngine s (s.mapChannels f) :=
  ⟨fun c => by rw [State.mapChannels_channels, hf], by simp, by simp, by simp, by simp⟩

theorem mapSelected (s : State) (mask : Half) (f : Channel → Channel) (hf : ∀ ch, (f ch).owner = ch.owner) :
    SameEngine s (s.mapSelected mask f) :=
  mapChannels s _ fun c ch => by split <;> [exact hf ch; rfl]

theorem recode (s : State) (p : Channel → Bool) : SameEngine s (s.recode p) := mapChannels s _ fun c ch => by split <;> rfl

theorem recodeAll (s : State) : SameEngine s s.recodeAll := recode s _

theorem writeTrims (s : State) (v : Vector Int 16) : SameEngine s (s.writeTrims v) := mapChannels s _ fun _ _ => rfl

theorem applyTrims (s : State) (v : Vector Int 16) : SameEngine s (s.applyTrims v) := (writeTrims s v).trans (recode _ _)

theorem trimSet (s : State) (mask : Half) (trim : Int) : SameEngine s (Machine.trimSet mask trim s).1 := by
  rw [trimSet_state]
  refine mapSelected s mask _ fun ch => ?_
  unfold State.withOverride
  split <;> rfl

theorem trimSource (s : State) (mask : Half) (x : TrimSource) : SameEngine s (setTrimSource mask x s).1 := by
  rw [setTrimSource_state]
  exact mapSelected s mask _ fun _ => rfl

theorem writeCurve (s : State) (k : SlotNo) (c : Curve) : SameEngine s (s.writeCurve k c) := by
  have written : SameEngine s (s.setCurve k c) := of_channels rfl rfl rfl rfl rfl
  rw [State.writeCurve_eq]
  exact written.trans (recode _ _)

theorem applyCurves (s : State) (v : Vector Curve 7) : SameEngine s (s.applyCurves v) := by
  have written : SameEngine s (s.setCurves v) := of_channels rfl rfl rfl rfl rfl
  rw [State.applyCurves_eq]
  exact written.trans (recode _ _)

theorem setProfile (s : State) (p : Profile) :
    SameEngine s { s with profile := p, heldFrom := s.heldFromAfter p }.recodeAll := by
  have written : SameEngine s { s with profile := p, heldFrom := s.heldFromAfter p } := of_channels rfl rfl rfl rfl rfl
  exact written.trans (recodeAll _)

theorem writeClass (s : State) (p : RunProfile) (k : Fin 6) : SameEngine s (s.writeClass p k) := by
  cases p <;> exact of_channels rfl rfl rfl rfl rfl

theorem report (s : State) (b : ReportBody) : SameEngine s (s.report b) :=
  of_channels (by simp) (by simp) (by simp) (by simp) (by simp)

theorem afterProgram (s : State) (p : Program) (o : ReadBack) : SameEngine s (s.afterProgram p o) := by
  unfold State.afterProgram
  split
  · split
    · exact applyTrims s _
    · exact of_channels rfl rfl rfl rfl rfl
  · exact of_channels rfl rfl rfl rfl rfl

theorem endProgram (s : State) (p : Program) (o : ReadBack) : SameEngine s (s.endProgram p o) := by
  have settled : SameEngine s (s.settleProgram p o) := of_channels rfl rfl rfl rfl rfl
  have cleared (u : State) : SameEngine u u.clearProgram := of_channels rfl rfl rfl rfl rfl
  exact ((settled.trans (report _ _)).trans (afterProgram _ p o)).trans (cleared _)

theorem cutProgram (s : State) : SameEngine s s.cutProgram := by
  unfold State.cutProgram
  split <;> exact of_channels rfl rfl rfl rfl rfl

theorem loadArray (s : State) : SameEngine s s.loadArray := by
  have taken : SameEngine s s.readArray.takeLoaded := of_channels rfl rfl rfl rfl rfl
  exact (taken.trans (writeTrims _ _)).trans (recodeAll _)

theorem applyLoaded (s : State) : SameEngine s s.applyLoaded := by
  unfold State.applyLoaded
  split
  · rename_i x _
    have bound : SameEngine s (s.bindScene x) := mapChannels s _ fun _ _ => rfl
    have profiled : SameEngine (s.bindScene x) { s.bindScene x with
        profile := x.profile.toProfile
        activeClass := x.activeClass
        economyClass := x.economyClass } :=
      of_channels (by simp) (by simp) (by simp) (by simp) (by simp)
    rw [State.applyScene]
    exact (bound.trans profiled).trans (recodeAll _)
  · exact of_channels rfl rfl rfl rfl rfl

end SameEngine

/-! ## The laws under the requests -/

namespace EngineLaws

variable {s t : State}

/-- The laws hold with a cue record written that has the shape of R24, or none. -/
theorem withCue (h : EngineLaws s) (c : CueIdx) {o : Option CueRecord} (shaped : ∀ r ∈ o, RecordShaped r) :
    EngineLaws { s with cues := s.cues.set c o } where
  list := h.list
  nextIdPositive := h.nextIdPositive
  recordsShaped := fun c' r hr => by
    rcases eq_or_ne c c' with rfl | other
    · exact shaped r (by simpa using hr)
    · have untouched : (s.cues.set c o)[c'] = s.cues[c'] := by simp [Fin.val_ne_of_ne other]
      exact h.recordsShaped c' r (untouched ▸ hr)
  follows := h.follows
  ownership := h.ownership
  underway := h.underway
  noneDue := h.noneDue
  live := h.live

/-- No request breaks the laws. -/
theorem effect (h : EngineLaws s) (k : RequestEffect s t) : EngineLaws t := by
  cases k with
  | nothing => exact h
  | fetch m => exact h.congr (.of_channels rfl rfl rfl rfl rfl)
  | restart => exact h.congr (.of_channels rfl rfl rfl rfl rfl)
  | setProfile p => exact h.congr (.setProfile s p)
  | setCeilingInForce p k => exact h.congr ((SameEngine.writeClass s p k).trans (.recodeAll _))
  | setCeilingAside p k => exact h.congr (.writeClass s p k)
  | curveWrite k c => exact h.congr (.writeCurve s k c)
  | bind mask k => exact h.congr (.mapSelected s mask _ fun _ => rfl)
  | trimSet mask trim => exact h.congr (.trimSet s mask trim)
  | trimSource mask x => exact h.congr (.trimSource s mask x)
  | setLevel mask level => exact h.setLevel mask level
  | cueLoad c r shaped => exact h.withCue c (by simpa using shaped)
  | cueClear c => exact h.withCue c (by simp)
  | cueGo c r accepted hr => exact h.startCue .request accepted hr
  | cueArm c m => exact h.congr (.of_channels rfl rfl rfl rfl rfl)
  | cueDisarm => exact h.congr (.of_channels rfl rfl rfl rfl rfl)
  | cueStop i hi => exact h.stopInstance hi
  | cueStopAll => exact h.stopAll
  | storeProgram k g fade p => exact h.congr (.of_channels rfl rfl rfl rfl rfl)
  | loadCurves => exact h.congr (.applyCurves s _)
  | loadTrims => exact h.congr (.applyTrims s _)
  | loadLabel => exact h.congr (.of_channels rfl rfl rfl rfl rfl)
  | replay x _ _ _ fresh room => exact h.startScene x room fresh
  | labelSet v => exact h.congr (.of_channels rfl rfl rfl rfl rfl)

/-! ## The laws under the events -/

/-- Load completion finds an empty list and launches the start-up instance, where there is one (R132). -/
theorem load (h : EngineLaws s) (quiet : s.active = []) : EngineLaws s.load := by
  have same : SameEngine s (s.loadArray.applyLoaded.report s.loadArray.applyLoaded.startBody) :=
    ((SameEngine.loadArray s).trans (.applyLoaded _)).trans (.report _ _)
  have reported := h.congr same
  have ready {u : State} (hu : EngineLaws u) : EngineLaws u.becomeReady := hu.congr (.of_channels rfl rfl rfl rfl rfl)
  rw [State.load_eq]
  refine ready ?_
  unfold State.playLoaded
  split
  · exact reported.startScene _ (by simp [quiet]) (by simp [quiet, idHeld])
  · exact reported

theorem takeEdge (h : EngineLaws s) : EngineLaws s.takeEdge := by
  have marked : EngineLaws s.markEdge := h.congr (.of_channels rfl rfl rfl rfl rfl)
  have armed {u : State} (hu : EngineLaws u) (o : Option Armed) : EngineLaws (u.setArmed o) :=
    hu.congr (.of_channels rfl rfl rfl rfl rfl)
  unfold State.takeEdge
  split
  · exact marked
  · unfold State.fire
    split
    · exact armed (marked.startReported _ _) _
    · exact marked.startReported _ _

end EngineLaws

/-! ## The START phase (R128) -/

/-- The fields that the laws of the Cue Engine read are the same. -/
def SameLawful (s t : State) : Prop :=
  t.channels = s.channels ∧ t.cues = s.cues ∧ t.active = s.active ∧ t.nextId = s.nextId ∧ t.follows = s.follows ∧
    t.phase = s.phase ∧ t.inFlight = s.inFlight ∧ t.reports = s.reports ∧ t.overflow = s.overflow ∧ t.nextReport = s.nextReport

theorem EngineSound.congr {s t : State} (h : EngineSound s) (same : SameLawful s t) : EngineSound t := by
  obtain ⟨channels, cues, active, nextId, follows, phase, inFlight, reports, overflow, nextReport⟩ := same
  obtain ⟨four, ids, counter, records, shaped, ownership, live, timed, followsLe, quiet, dark, queue⟩ := h
  constructor <;> simp only [channels, cues, active, nextId, follows, phase, inFlight, reports, overflow, nextReport] <;> assumption

theorem State.mapChannels_eq_self {s : State} {f : ChannelNo → Channel → Channel}
    (h : ∀ c : ChannelNo, f c s.channels[c] = s.channels[c]) :
    s.mapChannels f = s := by
  have same : (Vector.ofFn fun c : ChannelNo => f c s.channels[c]) = s.channels := by
    ext c hc
    rw [Vector.getElem_ofFn]
    exact h ⟨c, hc⟩
  rw [State.mapChannels, same]

theorem State.mapActive_eq_self {s : State} (quiet : s.active = []) (f : Instance → Instance) : s.mapActive f = s := by
  have same : s.active.map f = s.active := by rw [quiet]; rfl
  rw [State.mapActive, same]

theorem State.sweep_eq_self {s : State} (quiet : s.active = []) : s.sweep = s := by
  have same : (s.active.filter fun i => !i.finished) = s.active := by rw [quiet]; rfl
  have none : s.active.filter Instance.finished = [] := by rw [quiet]; rfl
  rw [State.sweep, none, List.foldl_nil, State.dropFinished, same]

/-- An expiry with empty lists advances the uptime counter and the fade clock alone (R46). -/
theorem State.expiry_of_quiet {s : State} (active : s.active = []) (follows : s.follows = []) : s.expiry = s.tick := by
  have quiet : s.tick.active = [] := active
  have unstepped : s.tick.stepFades = s.tick := by
    have none : ∀ c : ChannelNo, s.tick.stepChannel c s.tick.channels[c] = s.tick.channels[c] := fun c =>
      State.stepChannel_none (by rw [quiet]; rfl) _
    rw [State.stepFades, State.mapChannels_eq_self none, State.mapActive_eq_self quiet]
  have unstarted : s.tick.startDue = s.tick := by
    refine List.foldl_fixed' (fun c => ?_) _
    rcases s.tick.startDueOn_cases c with ⟨same, -⟩ | ⟨i, hi, -⟩
    · exact same
    · rw [quiet] at hi
      cases hi
  have worked : s.tick.cueWork = s.tick := by
    rw [State.cueWork, unstepped, State.advanceElapsed_eq_mapActive, State.mapActive_eq_self quiet, unstarted,
      State.sweep_eq_self quiet, ite_self]
  have unserved : s.tick.follows = [] := follows
  rw [State.expiry, worked, State.serveAll, unserved]
  rfl

/-! ## Every command -/

@[simp] theorem State.recode_phase (s : State) (p : Channel → Bool) : (s.recode p).phase = s.phase := by
  rw [State.recode_eq_mapChannels, State.mapChannels_phase]

@[simp] theorem State.mapSelected_phase (s : State) (mask : Half) (f : Channel → Channel) :
    (s.mapSelected mask f).phase = s.phase := by
  rw [State.mapSelected_eq_mapChannels, State.mapChannels_phase]

@[simp] theorem State.writeClass_phase (s : State) (p : RunProfile) (k : Fin 6) : (s.writeClass p k).phase = s.phase := by
  cases p <;> rfl

@[simp] theorem State.applyTrims_phase (s : State) (v : Vector Int 16) : (s.applyTrims v).phase = s.phase := by
  simp [State.applyTrims, State.writeTrims]

/-- No request moves the part out of its phase. -/
theorem RequestEffect.phase {s t : State} (k : RequestEffect s t) : t.phase = s.phase := by
  cases k with
  | setProfile p => rw [State.recodeAll_eq_recode, State.recode_phase]
  | setCeilingInForce p k => rw [State.recodeAll_eq_recode, State.recode_phase, State.writeClass_phase]
  | setCeilingAside p k => exact State.writeClass_phase s p k
  | curveWrite k c => rw [State.writeCurve_eq, State.recode_phase, State.setCurve]
  | bind mask k => exact State.mapSelected_phase s mask _
  | trimSet mask trim => rw [trimSet_state, State.mapSelected_phase]
  | trimSource mask x => rw [setTrimSource_state, State.mapSelected_phase]
  | setLevel mask level =>
    rw [setLevel_state, (CueWork.sweep _).phase, State.mapActive_phase, State.levelled, State.mapSelected_phase]
  | cueGo c r => exact (CueWork.startCue s c .request r).phase
  | cueStop i => exact (CueWork.stopInstance s i).phase
  | cueStopAll => exact (CueWork.stopAll s).phase
  | loadCurves => rw [State.applyCurves_eq, State.recode_phase, State.setCurves]
  | loadTrims => exact State.applyTrims_phase s _
  | replay x => exact (CueWork.launch s _).phase
  | _ => rfl

theorem State.endProgram_phase (s : State) (p : Program) (o : ReadBack) : (s.endProgram p o).phase = s.phase := by
  have after (u : State) : (u.afterProgram p o).phase = u.phase := by
    unfold State.afterProgram
    split <;> [(split <;> simp); rfl]
  rw [State.endProgram, State.clearProgram]
  simp [after, State.settleProgram]

theorem State.takeEdge_phase (s : State) : s.takeEdge.phase = s.phase := by
  obtain ⟨u, o, steps, e⟩ := CueSteps.takeEdge s
  rw [e]
  exact steps.cueWork_of.phase

namespace EngineSound

variable {s t : State}

/-- An expiry in the START phase finds nothing to do; in any other phase its steps keep the laws (R46, R128). -/
theorem expiry (h : EngineSound s) : EngineSound s.expiry := by
  have ticked : EngineSound s.tick := h.congr ⟨rfl, rfl, rfl, rfl, rfl, rfl, rfl, rfl, rfl, rfl⟩
  by_cases hp : s.phase = .start
  · obtain ⟨active, follows⟩ := h.startQuiet hp
    rw [State.expiry_of_quiet active follows]
    exact ticked
  · have expired : EngineLaws s.expiry := ticked.cueWork.serve _
    exact expired.sound (by rw [(CueWork.expiry s).phase]; exact hp)

theorem endSending (h : EngineSound s) (x : Sending) : EngineSound (s.endSending x) := by
  unfold State.endSending
  split
  · have restarted : EngineLaws (s.advanceTo (x.startedAt + sendTime s.bitRate x.frame)).beginRestart :=
      h.laws.congr (.of_channels rfl rfl rfl rfl rfl)
    exact restarted.sound (by simp [State.beginRestart])
  · exact h.congr ⟨rfl, rfl, rfl, rfl, rfl, rfl, rfl, rfl, rfl, rfl⟩

theorem change (h : EngineSound s) (k : Change s t) : EngineSound t := by
  cases k with
  | nothing => exact h
  | receives r => exact h.congr ⟨rfl, rfl, rfl, rfl, rfl, rfl, rfl, rfl, rfl, rfl⟩
  | answers f => exact h.congr (by simp [SameLawful])
  | executes k q p ready =>
    have effect := handlerOf_effect k p s
    have executed : EngineLaws (answered (handlerOf k p s).1 k q p (handlerOf k p s).2) :=
      (h.laws.effect effect).congr (.of_channels rfl rfl rfl rfl rfl)
    exact executed.sound (by rw [show (answered _ k q p _).phase = s.phase from effect.phase, ready]; simp)
  | expiry => exact h.expiry
  | takeEdge taken =>
    refine h.laws.takeEdge.sound ?_
    have ready : s.phase = .ready := by
      simp only [State.edgeTaken, Bool.and_eq_true, decide_eq_true_eq] at taken
      exact taken.1
    rw [State.takeEdge_phase, ready]
    simp
  | endProgram p o _ hp =>
    refine (h.laws.congr (SameEngine.endProgram s p o)).sound ?_
    rw [State.endProgram_phase]
    intro start
    rw [(h.startQueue start).1] at hp
    cases hp
  | load hp => exact (h.laws.load (h.startQuiet hp).1).sound (by simp [State.load_eq, State.becomeReady])
  | resetCondition c =>
    have held : EngineLaws { s.cutProgram with phase := .held (heldCause s c), sending := none, restarting := false } :=
      (h.laws.congr (SameEngine.cutProgram s)).congr (.of_channels rfl rfl rfl rfl rfl)
    exact held.sound (by simp)
  | base cause rate => exact engineSound_reset.congr ⟨rfl, rfl, rfl, rfl, rfl, rfl, rfl, rfl, rfl, rfl⟩
  | oe l => exact h.congr ⟨rfl, rfl, rfl, rfl, rfl, rfl, rfl, rfl, rfl, rfl⟩
  | timeout => exact h.congr (by simp [SameLawful])
  | endSending x => exact h.endSending x
  | resetLink t => exact h.congr (by simp [SameLawful, State.resetLink])
  | fallsHeld => exact h.congr ⟨rfl, rfl, rfl, rfl, rfl, rfl, rfl, rfl, rfl, rfl⟩
  | fallsIdle => exact h.congr ⟨rfl, rfl, rfl, rfl, rfl, rfl, rfl, rfl, rfl, rfl⟩
  | fallsAgain => exact h.congr ⟨rfl, rfl, rfl, rfl, rfl, rfl, rfl, rfl, rfl, rfl⟩
  | risesHeld => exact h.congr ⟨rfl, rfl, rfl, rfl, rfl, rfl, rfl, rfl, rfl, rfl⟩
  | rises => exact h.congr ⟨rfl, rfl, rfl, rfl, rfl, rfl, rfl, rfl, rfl, rfl⟩

end EngineSound

/-- Settles O44: each operation of the Cue Engine keeps the laws that hold while an event is carried out, what is due starts within
the event, and its sweep leaves no finished instance. -/
theorem engineSoundIsKept : Obligations.EngineSoundIsKept := fun _ _ _ sound k => sound.change (exec_change k)

end Sys2Proof.Machine
end

section
/-!
The Cue Table and the Arm Slot under their requests: CUE_LOAD (R26, R27), CUE_ARM (R65), CUE_DISARM (R66), CUE_CLEAR (R29).
-/
namespace Sys2Proof.Machine

/-! ## CUE_ARM, CUE_DISARM and CUE_CLEAR -/

theorem handleCueArm_bytes (c : CueIdx) (m : ArmMode) (s : State) :
    handleCueArm [byteOf (c.val + 1), m.code] s =
      if s.cues[c] = none then refuse s .empty else accept { s with armed := some { cue := c, mode := m } } [] := by
  simp only [handleCueArm, cue?_byteOf, armMode?_code]

theorem handleCueClear_bytes (c : CueIdx) (s : State) :
    handleCueClear [byteOf (c.val + 1)] s =
      if s.isArmed c then refuse s .inUse else accept { s with cues := s.cues.set c none } [] := by
  simp only [handleCueClear, cue?_byteOf]

/-- A cue is armed when the Arm Slot holds it in either mode (R29). -/
theorem State.isArmed_iff (s : State) (c : CueIdx) : s.isArmed c = true ↔ ∃ m, s.armed = some ⟨c, m⟩ := by
  rw [State.isArmed, decide_eq_true_eq, Option.map_eq_some_iff]
  constructor
  · rintro ⟨⟨_, m⟩, h, rfl⟩
    exact ⟨m, h⟩
  · rintro ⟨m, h⟩
    exact ⟨_, h, rfl⟩

/-- Settles O31. -/
theorem armSlotRequests : Obligations.ArmSlotRequests := by
  refine ⟨fun s q => ⟨formRefusals (fun _ => rfl) (by simp) s, formRefusals (fun _ => rfl) (by simp) s,
    formRefusals (fun _ => rfl) (by simp) s⟩, fun s q c => ⟨fun m he => ?_, fun he => ?_, fun he => ?_⟩⟩
  · rw [exec_of_executes he rfl (by simp), handlerOf, handleCueArm_bytes]
    exact ⟨fun undefined => by rw [if_pos undefined]; rfl, fun defined => by rw [if_neg defined]; rfl⟩
  · rw [exec_of_executes he rfl (by simp)]
    rfl
  · rw [exec_of_executes he rfl (by simp), handlerOf, handleCueClear_bytes, ← State.isArmed_iff]
    refine ⟨fun armed => by rw [if_pos armed]; rfl, fun notArmed => ?_⟩
    rw [if_neg (by rw [State.isArmed_iff]; exact not_exists.2 notArmed)]
    rfl

/-! ## CUE_LOAD -/

theorem follow?_none {b : Byte} (h : 32 < b.toNat) : follow? b = none := by
  have present : b ≠ 0 := by
    rintro rfl
    simp at h
  rw [follow?, if_neg present, cue?_none (.inr h)]
  rfl

theorem time?_none {a b : Byte} (h : 60000 < word16 a b) : time? a b = none := if_neg (by omega)

theorem EntryFields.length_flatten (fields : List EntryFields) :
    ((fields.map EntryFields.bytes).flatten).length = 7 * fields.length := by
  induction fields with
  | nil => rfl
  | cons x fields ih =>
    simp only [List.map_cons, List.flatten_cons, List.length_append, ih, EntryFields.bytes, maskBytes, List.length_cons,
      List.length_nil]
    omega

/-- Entries that are read have every field of the first in its range, and the rest are read (R27, R190). -/
theorem entries?_bytes_append {x : EntryFields} {rest : List Byte} {es : List CueEntry}
    (h : entries? (x.bytes ++ rest) = some es) : ¬ x.OutOfRange ∧ ∃ es', entries? rest = some es' := by
  simp only [EntryFields.bytes, maskBytes, List.cons_append, List.nil_append, entries?] at h
  split at h
  · rename_i hc ht hf hd he
    refine ⟨?_, _, he⟩
    rintro (out | out | out | out)
    · rw [channel?_none out] at hc
      cases hc
    · rw [level?_none (by rwa [word16_extract])] at ht
      cases ht
    · rw [time?_none (by rwa [word16_extract])] at hf
      cases hf
    · rw [time?_none (by rwa [word16_extract])] at hd
      cases hd
  · cases h

/-- Entries that are read have every field in its range (R27). -/
theorem inRange_of_entries? {fields : List EntryFields} {es : List CueEntry}
    (h : entries? (fields.map EntryFields.bytes).flatten = some es) : ∀ x ∈ fields, ¬ x.OutOfRange := by
  induction fields generalizing es with
  | nil => simp
  | cons y fields ih =>
    rw [List.map_cons, List.flatten_cons] at h
    obtain ⟨first, es', rest⟩ := entries?_bytes_append h
    exact List.forall_mem_cons.2 ⟨first, ih rest⟩

/-- One field out of its range spoils the entries (R27). -/
theorem entries?_outOfRange {fields : List EntryFields} (h : ∃ x ∈ fields, x.OutOfRange) :
    entries? (fields.map EntryFields.bytes).flatten = none := by
  obtain ⟨x, hx, out⟩ := h
  cases read : entries? (fields.map EntryFields.bytes).flatten with
  | none => rfl
  | some es => exact absurd out (inRange_of_entries? read x hx)

theorem handleCueLoad_badLength {p : List Byte} (s : State)
    (h : p.length < 3 ∨ ∃ c f n rest, p = c :: f :: n :: rest ∧ rest.length ≠ 7 * n.toNat) :
    handleCueLoad p s = refuse s .badLength := by
  unfold handleCueLoad
  split
  · rename_i c f n rest
    have length : rest.length ≠ 7 * n.toNat := by
      rcases h with short | ⟨_, _, _, _, e, length⟩
      · simp only [List.length_cons] at short
        omega
      · cases e
        exact length
    rw [if_pos length]
  · rfl

/-- A payload of the length that its count asks, with a count or a field out of range (R27). -/
theorem handleCueLoad_outOfRange {c f n : Byte} {rest : List Byte} (s : State) (length : rest.length = 7 * n.toNat)
    (h : n.toNat < 1 ∨ 16 < n.toNat ∨ cue? c = none ∨ follow? f = none ∨ entries? rest = none) :
    handleCueLoad (c :: f :: n :: rest) s = refuse s .range := by
  simp only [handleCueLoad, length, ne_eq, not_true_eq_false, if_false]
  split
  · rfl
  · rename_i count
    split
    · rename_i hc hf he
      rcases h with h | h | h | h | h
      · exact absurd (.inl h) count
      · exact absurd (.inr h) count
      · rw [h] at hc
        cases hc
      · rw [h] at hf
        cases hf
      · rw [h] at he
        cases he
    · rfl

/-- The bytes of a record in range are read as that record (R190). -/
theorem handleCueLoad_recordBytes {c : CueIdx} {r : CueRecord} (s : State) (inRange : ∀ e ∈ r.entries, EntryInRange e)
    (low : 1 ≤ r.entries.length) (high : r.entries.length ≤ 16) : handleCueLoad (recordBytes c r) s = cueLoad c r s := by
  have count : (byteOf r.entries.length).toNat = r.entries.length := toNat_byteOf _ (by omega)
  have inBounds : ¬ (r.entries.length < 1 ∨ 16 < r.entries.length) := by omega
  have cue : cue? (cueByte (some c)) = some c := cue?_byteOf c
  simp only [recordBytes, List.cons_append, List.nil_append, handleCueLoad, length_entryBytes, count, ne_eq, not_true_eq_false,
    if_false, if_neg inBounds, cue, follow?_cueByte, entries?_bytes _ inRange]

/-- A frame's payload has room for fewer than 256 entries (R150). -/
theorem entryCount_lt_of_executes {s : State} {q c f n : Byte} {fields : List EntryFields}
    (he : Executes s .cueLoad q (c :: f :: n :: (fields.map EntryFields.bytes).flatten)) : fields.length < 256 := by
  have fits := he.1
  simp only [List.length_cons, EntryFields.length_flatten] at fits
  omega

/-- Settles O30: the length is checked first, then every field, then the channels, and the record is written whole. -/
theorem cueLoadReplacesTheRecord : Obligations.CueLoadReplacesTheRecord := by
  intro s q
  refine ⟨fun p he bad => ?_, ?_, fun c r inRange low high he => ?_⟩
  · rw [exec_of_executes he rfl (by simp), handlerOf, handleCueLoad_badLength s bad]
    rfl
  · intro c f fields payload he out
    have count : (byteOf fields.length).toNat = fields.length := toNat_byteOf _ (entryCount_lt_of_executes he)
    have refused : handleCueLoad payload s = refuse s .range := by
      refine handleCueLoad_outOfRange s (by rw [count, EntryFields.length_flatten]) ?_
      rw [count]
      rcases out with h | h | h | h | h | h
      · exact .inr (.inr (.inl (cue?_none (.inl h))))
      · exact .inr (.inr (.inl (cue?_none (.inr h))))
      · exact .inr (.inr (.inr (.inl (follow?_none h))))
      · exact .inl (by omega)
      · exact .inr (.inl h)
      · exact .inr (.inr (.inr (.inr (entries?_outOfRange h))))
    rw [exec_of_executes he rfl (by simp), handlerOf, refused]
    rfl
  · rw [exec_of_executes he rfl (by simp), handlerOf, handleCueLoad_recordBytes s inRange low high, ← distinctChannels_iff]
    constructor
    · intro twice
      simp [cueLoad, twice, refuse]
    · intro once
      simp [cueLoad, once, accept]

end Sys2Proof.Machine
end

section
/-!
Completion (R51, R52, R53, R72) and starts by request (R38, R39, R40): the sweep, CUE_DONE and the follow hand-off, CUE_GO.
-/
namespace Sys2Proof.Machine

/-! ## Completion -/

/-- The sweep, with the finished instances spelled by their entries (R51). -/
theorem State.sweep_eq (s : State) :
    s.sweep = (s.active.filter fun i => !(i.entries.any EntryCopy.isLive)).foldl State.complete
      { s with active := s.active.filter fun i => i.entries.any EntryCopy.isLive } := by
  have finished : Instance.finished = fun i => !(i.entries.any EntryCopy.isLive) := funext Instance.finished_eq
  simp only [State.sweep, State.dropFinished, finished, Bool.not_not]

theorem Instance.sweepOutcome_of_done {i : Instance} (h : ∀ e ∈ i.entries, e.state = .done) : i.sweepOutcome = .complete :=
  if_pos (List.all_eq_true.2 fun e he => decide_eq_true (h e he))

theorem Instance.sweepOutcome_of_not_done {i : Instance} (h : ∃ e ∈ i.entries, e.state ≠ .done) :
    i.sweepOutcome = .partialDone := by
  obtain ⟨e, he, notDone⟩ := h
  exact if_neg fun all => notDone (of_decide_eq_true (List.all_eq_true.1 all e he))

/-- A PARTIAL completion hands on no follow (R53). -/
theorem State.complete_partial (s : State) {i : Instance} (h : ∃ e ∈ i.entries, e.state ≠ .done) :
    s.complete i = s.report (i.doneReport .partialDone) := by
  rw [State.complete, Instance.sweepOutcome_of_not_done h]

theorem State.complete_noFollow (s : State) {i : Instance} (h : ∀ e ∈ i.entries, e.state = .done) (follow : i.follow = none) :
    s.complete i = s.report (i.doneReport .complete) := by
  rw [State.complete, Instance.sweepOutcome_of_done h, follow]

/-- A COMPLETE completion hands its follow on (R53). -/
theorem State.complete_follow (s : State) {i : Instance} {c : CueIdx} (h : ∀ e ∈ i.entries, e.state = .done)
    (follow : i.follow = some c) : s.complete i = (s.report (i.doneReport .complete)).handOff c := by
  rw [State.complete, Instance.sweepOutcome_of_done h, follow]

theorem State.handOff_room {s : State} (room : s.follows.length < 4) (c : CueIdx) :
    s.handOff c = { s with follows := s.follows ++ [c] } := if_pos room

theorem State.handOff_full {s : State} (full : 4 ≤ s.follows.length) (c : CueIdx) :
    s.handOff c = s.report (.startRefused c .follow .full) := if_neg (Nat.not_lt_of_le full)

/-- Settles O40: a completion is its report, then the hand-off of its follow. -/
theorem sweepCompletesTheFinished : Obligations.SweepCompletesTheFinished := by
  refine ⟨State.sweep_eq, fun s i => ⟨s.complete_partial, s.complete_noFollow, fun c all follow room => ?_,
    fun c all follow full => ?_⟩⟩
  · rw [s.complete_follow all follow, State.handOff_room (by simpa using room), State.report_follows]
    rfl
  · rw [s.complete_follow all follow, State.handOff_full (by simpa using full)]
    rfl

/-! ## The refusals of a start (R39) -/

theorem State.startRefusal_empty {s : State} {c : CueIdx} (undefined : s.cues[c] = none) : s.startRefusal c = some .empty :=
  if_pos undefined

theorem State.startRefusal_profile {s : State} {c : CueIdx} (defined : s.cues[c] ≠ none) (paused : s.profile.running = false) :
    s.startRefusal c = some .profile := by
  rw [State.startRefusal, if_neg defined, paused]
  rfl

theorem State.startRefusal_full {s : State} {c : CueIdx} (defined : s.cues[c] ≠ none) (running : s.profile.running = true)
    (full : 4 ≤ s.active.length) : s.startRefusal c = some .full := by
  rw [State.startRefusal, if_neg defined, running]
  exact if_pos full

/-! ## CUE_GO (R40) -/

theorem handleCueGo_bytes (c : CueIdx) (s : State) :
    handleCueGo [byteOf (c.val + 1)] s = if !s.profile.running then refuse s .profile else cueGo c s := by
  simp only [handleCueGo, cue?_byteOf]

theorem handleCueGo_paused {s : State} (c : CueIdx) (paused : s.profile.running = false) :
    handleCueGo [byteOf (c.val + 1)] s = refuse s .profile := by
  rw [handleCueGo_bytes, paused]
  rfl

theorem handleCueGo_refused {s : State} {c : CueIdx} {why : Status} (running : s.profile.running = true)
    (refused : s.startRefusal c = some why) : handleCueGo [byteOf (c.val + 1)] s = refuse s why := by
  simp [handleCueGo_bytes, running, cueGo, refused]

theorem handleCueGo_accepted {s : State} {c : CueIdx} {r : CueRecord} (running : s.profile.running = true)
    (defined : s.cues[c] = some r) (room : s.active.length < 4) :
    handleCueGo [byteOf (c.val + 1)] s = accept (s.startCue c .request r) [s.issueId] := by
  simp only [handleCueGo_bytes, running, cueGo, State.startRefusal_eq_none running defined room, defined]
  rfl

/-- The state in which a new instance of a cue has joined the list and its id is taken, before any of its entries starts (R38,
R39). -/
def State.joinCue (s : State) (c : CueIdx) (source : StartSource) (r : CueRecord) : State :=
  s.takeId.join (newInstance s.issueId c source r)

/-- A start of a cue: the instance joins, is announced, starts what has delay 0, and the sweep runs (R39). -/
theorem State.startCue_eq (s : State) (c : CueIdx) (source : StartSource) (r : CueRecord) :
    s.startCue c source r = (((s.joinCue c source r).announce (newInstance s.issueId c source r)).startEntries s.issueId
      (r.entries.filter fun e => decide (e.delay = 0))).sweep := by
  rw [← atOnce_newInstance s.issueId c source r]
  rfl

/-- Settles O33: the decoder's profile check comes first, then the checks of R39; a start by request is not announced. -/
theorem cueGoStartsTheCue : Obligations.CueGoStartsTheCue := by
  refine ⟨fun s q => formRefusals (fun _ => rfl) (by simp) s, fun s q c he => ?_⟩
  dsimp only
  rw [exec_of_executes he rfl (by simp), handlerOf]
  refine ⟨fun paused => ?_, fun running undefined => ?_, fun running defined full => ?_, fun r running defined room => ?_⟩
  · rw [handleCueGo_paused c paused]
    rfl
  · rw [handleCueGo_refused running (State.startRefusal_empty undefined)]
    rfl
  · rw [handleCueGo_refused running (State.startRefusal_full defined running full)]
    rfl
  · rw [handleCueGo_accepted running defined room, State.startCue_eq]
    rfl

/-! ## A start with delays alone (R38, R39) -/

/-- The search for an id ends after at most its tries, past held ids alone (R38). -/
theorem freeId_eq (active : List Instance) (tries : Nat) (id : Byte) :
    ∃ n ≤ tries, freeId active tries id = nextIdAfter^[n] id ∧ ∀ m < n, idHeld active (nextIdAfter^[m] id) = true := by
  induction tries generalizing id with
  | zero => exact ⟨0, le_rfl, rfl, by simp⟩
  | succ tries ih =>
    rw [freeId]
    split
    · rename_i held
      obtain ⟨n, hn, found, passed⟩ := ih (nextIdAfter id)
      refine ⟨n + 1, by omega, found, fun m hm => ?_⟩
      cases m with
      | zero => exact held
      | succ m => exact passed m (by omega)
    · exact ⟨0, Nat.zero_le _, rfl, by simp⟩

/-- Id 0 is met from no other id (R38). -/
theorem nextIdAfter_iterate_ne_zero {id : Byte} (h : id ≠ 0) (n : Nat) : nextIdAfter^[n] id ≠ 0 := by
  cases n with
  | zero => exact h
  | succ n =>
    rw [Function.iterate_succ_apply']
    exact nextIdAfter_ne_zero _

/-- With every instance live the sweep finds nothing (R51). -/
theorem State.sweep_of_live {s : State} (live : ∀ i ∈ s.active, i.finished = false) : s.sweep = s := by
  have stays : s.active.filter (fun i => !i.finished) = s.active :=
    List.filter_eq_self.2 fun i hi => by rw [live i hi]; rfl
  have none : s.active.filter Instance.finished = [] :=
    List.filter_eq_nil_iff.2 fun i hi => by rw [live i hi]; exact Bool.false_ne_true
  rw [State.sweep, none, List.foldl_nil, State.dropFinished, stays]

/-- An instance with an entry that waits is not finished (R51). -/
theorem newInstance_live {r : CueRecord} (shaped : RecordShaped r) (id : Byte) (c : CueIdx) (source : StartSource) :
    (newInstance id c source r).finished = false := by
  obtain ⟨e, he⟩ := List.exists_mem_of_length_pos shaped.1
  rw [Instance.finished_eq, Bool.not_eq_false', List.any_eq_true]
  exact ⟨waitingCopy e, List.mem_map_of_mem he, rfl⟩

/-- A cue whose entries all have a delay joins the tail, and nothing else happens (R39). -/
theorem EngineSound.startCue_delayed {s : State} (sound : EngineSound s) {c : CueIdx} {r : CueRecord} (defined : s.cues[c] = some r)
    (delayed : ∀ e ∈ r.entries, 0 < e.delay) : s.startCue c .request r = s.joinCue c .request r := by
  have noneAtOnce : (r.entries.filter fun e => decide (e.delay = 0)) = [] :=
    List.filter_eq_nil_iff.2 fun e he => by simpa using (delayed e he).ne'
  have live : ∀ i ∈ (s.joinCue c .request r).active, i.finished = false := by
    intro i hi
    rcases List.mem_append.1 hi with hi | hi
    · exact sound.live i hi
    · rw [List.mem_singleton.1 hi]
      exact newInstance_live (sound.recordsShaped c r defined) _ _ _
  rw [State.startCue_eq, noneAtOnce]
  exact State.sweep_of_live live

/-- Settles O34: nothing starts at once and nothing is finished, so the start is the instance's joining. -/
theorem delayedCueJoinsTheTail : Obligations.DelayedCueJoinsTheTail := by
  intro s q c r sound he running defined room delayed
  obtain ⟨n, hn, found, passed⟩ := freeId_eq s.active s.active.length s.nextId
  have issued : s.issueId = nextIdAfter^[n] s.nextId := found
  have free : ∀ i ∈ s.active, i.id ≠ s.issueId := fun i hi same =>
    Bool.eq_false_iff.1 (State.issueId_free room) (idHeld_iff.2 ⟨i, hi, same⟩)
  refine ⟨n, s.issueId, hn, issued, ?_, free, fun m hm => idHeld_iff.1 (passed m hm), ?_⟩
  · rw [issued]
    exact nextIdAfter_iterate_ne_zero sound.nextIdPositive n
  · rw [exec_of_executes he rfl (by simp), handlerOf, handleCueGo_accepted running defined room,
      sound.startCue_delayed defined delayed]
    rfl

end Sys2Proof.Machine
end

section
/-!
Stops (R56, R57) and SET_LEVEL's overrides (R54, R55): what the end of instances writes besides their reports.
-/
namespace Sys2Proof.Machine

/-! ## Reports and what they do not read -/

/-- A change of the state that a report neither reads nor undoes. -/
def CommutesWithReport (f : State → State) : Prop := ∀ (s : State) (b : ReportBody), (f s).report b = f (s.report b)

/-- Reports queued for a list, one after another. -/
theorem CommutesWithReport.foldl {f : State → State} (h : CommutesWithReport f) {α : Type} (body : α → ReportBody) (l : List α)
    (s : State) : l.foldl (fun u x => u.report (body x)) (f s) = f (l.foldl (fun u x => u.report (body x)) s) := by
  induction l generalizing s with
  | nil => rfl
  | cons x l ih => rw [List.foldl_cons, List.foldl_cons, h, ih]

theorem commutesWithReport_follows (l : List CueIdx) : CommutesWithReport fun s => { s with follows := l } := fun s b => by
  cases h : s.overflow with
  | some o => simp only [State.report, h]
  | none => by_cases room : s.reports.length < Config.maxReports <;> simp only [State.report, h, room, if_true, if_false]

/-! ## Instances that stop together -/

/-- The channel FREE where `p` says so, its level and drive code as they are (R56). -/
def Channel.freedIf (p : Bool) (ch : Channel) : Channel := if p then { ch with owner := none } else ch

theorem Channel.freedIf_freedIf (p q : Bool) (ch : Channel) : (ch.freedIf p).freedIf q = ch.freedIf (p || q) := by
  cases p <;> cases q <;> rfl

/-- The state in which the instances of a list have let their channels go and left the Active List, before their reports (R56,
R57). -/
def State.without (s : State) (l : List Instance) : State := { s with
  channels := Vector.ofFn fun c => s.channels[c].freedIf (l.any fun i => i.fades c)
  active := s.active.filter fun j => l.all fun i => decide (j.id ≠ i.id) }

theorem commutesWithReport_without (l : List Instance) : CommutesWithReport fun s => s.without l := fun s b => by
  cases h : s.overflow with
  | some o => simp only [State.report, State.without, h]
  | none =>
    by_cases room : s.reports.length < Config.maxReports <;> simp only [State.report, State.without, h, room, if_true, if_false]

theorem State.without_channels (s : State) (l : List Instance) (c : ChannelNo) : (s.without l).channels[c] =
    s.channels[c].freedIf (l.any fun i => i.fades c) := by
  simp [State.without]

theorem State.without_nil (s : State) : s.without [] = s := by
  have channels : (Vector.ofFn fun c : ChannelNo => s.channels[c]) = s.channels := by
    ext c hc : 1
    rw [Vector.getElem_ofFn]
    rfl
  have active : (s.active.filter fun _ => true) = s.active := List.filter_eq_self.2 fun _ _ => rfl
  have unfreed (ch : Channel) : ch.freedIf false = ch := rfl
  simp only [State.without, List.any_nil, List.all_nil, unfreed, channels, active]

/-- Whether instances leave together or one before the others makes no difference. -/
theorem State.without_without (s : State) (i : Instance) (l : List Instance) : (s.without [i]).without l = s.without (i :: l) := by
  simp only [State.without, List.any_cons, List.any_nil, Bool.or_false, List.all_cons, List.all_nil, Bool.true_and,
    Fin.getElem_fin, Vector.getElem_ofFn, Fin.eta, Channel.freedIf_freedIf, List.filter_filter, Bool.and_comm]

/-- A stop is the instance's leaving, then its report (R56). -/
theorem State.stopInstance_eq (s : State) (i : Instance) :
    s.stopInstance i = (s.without [i]).report (i.cutAll.doneReport .stopped) := by
  have left : (s.releaseFades i).removeInstance i = s.without [i] := by
    simp only [State.removeInstance, State.releaseFades, State.mapChannels, State.without, Channel.freedIf, List.any_cons,
      List.any_nil, Bool.or_false, List.all_cons, List.all_nil, Bool.and_true]
  rw [State.stopInstance, left]

/-- Stops one after another: what they write, then their reports in order (R57). -/
theorem State.stopList_eq (l : List Instance) (s : State) : l.foldl State.stopInstance s =
    l.foldl (fun u i => u.report (i.cutAll.doneReport .stopped)) (s.without l) := by
  induction l generalizing s with
  | nil => exact s.without_nil.symm
  | cons i l ih =>
    have reported : (s.stopInstance i).without l = (s.without (i :: l)).report (i.cutAll.doneReport .stopped) := by
      rw [State.stopInstance_eq, ← State.without_without s i l]
      exact (commutesWithReport_without l (s.without [i]) _).symm
    rw [List.foldl_cons, ih, reported, List.foldl_cons]

/-- When every instance has left, every channel is FREE and the list is empty (R42, R57). -/
theorem EngineSound.without_active {s : State} (sound : EngineSound s) : s.without s.active = { s with
    channels := Vector.ofFn fun c => { s.channels[c] with owner := none }
    active := [] } := by
  have freed (c : ChannelNo) : s.channels[c].freedIf (s.active.any fun i => i.fades c) = { s.channels[c] with owner := none } := by
    unfold Channel.freedIf
    split
    · rfl
    · rename_i unfaded
      have free : s.channels[c].owner = none := by
        rw [Option.eq_none_iff_forall_ne_some]
        intro id owned
        obtain ⟨i, hi, -, fades⟩ := (sound.ownership c id).1 owned
        exact unfaded (List.any_eq_true.2 ⟨i, hi, fades⟩)
      rw [← free]
  have noneLeft : (s.active.filter fun j => s.active.all fun i => decide (j.id ≠ i.id)) = [] := by
    refine List.filter_eq_nil_iff.2 fun j hj all => ?_
    exact of_decide_eq_true (List.all_eq_true.1 all j hj) rfl
  simp only [State.without, freed, noneLeft]

/-- Settles O42: the stops commute with their reports, and so does the clearing of the Follow List. -/
theorem cueStopAllStopsAll : Obligations.CueStopAllStopsAll := by
  intro s q sound he
  have stopped : (s.active.foldl State.stopInstance s).clearFollows =
      s.active.foldl (fun u i => u.report (i.cutAll.doneReport .stopped)) { s.without s.active with follows := [] } := by
    rw [State.stopList_eq]
    exact ((commutesWithReport_follows []).foldl _ _ _).symm
  rw [exec_of_executes he rfl (by simp), handlerOf, handleCueStopAll, stopped, sound.without_active]
  simp only [Instance.cutAll_doneReport]
  rfl

/-! ## CUE_STOP (R56) -/

theorem handleCueStop_notFound {s : State} {id : Byte} (h : ∀ i ∈ s.active, i.id ≠ id) :
    handleCueStop [id] s = refuse s .notFound := by
  have none : (s.active.find? fun i => decide (i.id = id)) = none :=
    List.find?_eq_none.2 fun i hi => by simpa using h i hi
  rw [handleCueStop, none]

theorem handleCueStop_found {s : State} {older newer : List Instance} {i : Instance} (split : s.active = older ++ i :: newer)
    (ids : (s.active.map Instance.id).Nodup) : handleCueStop [i.id] s = accept (s.stopInstance i) [] := by
  obtain ⟨ho, -, -⟩ := ids_of_split (split ▸ ids)
  have found : (s.active.find? fun j => decide (j.id = i.id)) = some i := by
    rw [List.find?_eq_some_iff_append]
    exact ⟨by simp, older, newer, split, fun j hj => by simpa using ho j hj⟩
  rw [handleCueStop, found]

/-- The list without one of its instances (R35). -/
theorem filter_ids_split {older newer : List Instance} {i : Instance} (ids : ((older ++ i :: newer).map Instance.id).Nodup) :
    ((older ++ i :: newer).filter fun j => decide (j.id ≠ i.id)) = older ++ newer := by
  obtain ⟨ho, hn, -⟩ := ids_of_split ids
  have keep {l : List Instance} (h : ∀ j ∈ l, j.id ≠ i.id) : (l.filter fun j => decide (j.id ≠ i.id)) = l :=
    List.filter_eq_self.2 fun j hj => decide_eq_true (h j hj)
  simp only [List.filter_append, List.filter_cons, keep ho, keep hn, ne_eq, not_true_eq_false, decide_false,
    Bool.false_eq_true, if_false]

/-- Settles O41: the instance with the id is found, and its stop is its leaving and its report. -/
theorem cueStopStopsOne : Obligations.CueStopStopsOne := by
  refine ⟨fun s q => formRefusals (fun _ => rfl) (by simp) s, fun s q id he => ⟨fun unheld => ?_, ?_⟩⟩
  · rw [exec_of_executes he rfl (by simp), handlerOf, handleCueStop_notFound unheld]
    rfl
  · rintro older newer i split ids rfl
    have left : (s.releaseFades i).removeInstance i = { s with
        channels := Vector.ofFn fun c => if i.fades c = true then { s.channels[c] with owner := none } else s.channels[c]
        active := older ++ newer } := by
      simp only [State.removeInstance, State.releaseFades, State.mapChannels, split, filter_ids_split (split ▸ ids)]
    rw [exec_of_executes he rfl (by simp), handlerOf, handleCueStop_found split ids, State.stopInstance, left,
      Instance.cutAll_doneReport, accept]

/-! ## SET_LEVEL (R54) -/

/-- An instance with its fades on the selected channels OVERRIDDEN (R54). -/
def Instance.overriddenOn (mask : Half) (i : Instance) : Instance := { i with
  entries := i.entries.map fun e =>
    if selects mask e.entry.channel = true ∧ e.isFading = true then { e with state := .overridden } else e }

theorem Instance.endFades_eq_overriddenOn (mask : Half) (i : Instance) :
    i.endFades (fun c => selects mask c) .overridden = i.overriddenOn mask := by
  simp only [Instance.endFades, Instance.overriddenOn, Bool.and_eq_true]

/-- An instance that was live has an entry that is not DONE after SET_LEVEL: the one that was live (R52, R54). -/
theorem Instance.overriddenOn_not_done {i : Instance} (live : i.finished = false) (mask : Half) :
    ∃ e ∈ (i.overriddenOn mask).entries, e.state ≠ .done := by
  rw [Instance.finished_eq, Bool.not_eq_false', List.any_eq_true] at live
  obtain ⟨e, he, acts⟩ := live
  refine ⟨_, List.mem_map_of_mem he, ?_⟩
  split
  · simp
  · intro done
    simp [EntryCopy.isLive, done] at acts

theorem handleSetLevel_bytes {mask : Half} (hm : mask ≠ 0) {level : Nat} (hl : level ≤ 1000) (s : State) :
    handleSetLevel (maskBytes mask ++ bytes16 level) s = setLevel mask level s := by
  simp only [maskBytes, bytes16, List.cons_append, List.nil_append, handleSetLevel, mask?_bytes mask hm, level?_bytes level hl]

/-- Completions of instances that are not all DONE are their reports (R52, R53). -/
theorem foldl_complete_partial {l : List Instance} (h : ∀ i ∈ l, ∃ e ∈ i.entries, e.state ≠ .done) (s : State) :
    l.foldl State.complete s = l.foldl (fun u i => u.report (i.doneReport .partialDone)) s :=
  List.foldl_ext _ _ s fun u i hi => u.complete_partial (h i hi)

/-- Settles O26: every instance was live, so one that SET_LEVEL finishes has an entry OVERRIDDEN and completes PARTIAL. -/
theorem setLevelOverrides : Obligations.SetLevelOverrides := by
  refine ⟨fun s q => formRefusals (fun _ => rfl) (by simp) s, fun s q mask level sound hm hl he => ?_⟩
  have notDone : ∀ i ∈ (s.active.map (Instance.overriddenOn mask)).filter fun i => !(i.entries.any EntryCopy.isLive),
      ∃ e ∈ i.entries, e.state ≠ .done := by
    intro i hi
    obtain ⟨j, hj, rfl⟩ := List.mem_map.1 (List.mem_filter.1 hi).1
    exact Instance.overriddenOn_not_done (sound.live j hj) mask
  rw [exec_of_executes he rfl (by simp), handlerOf, handleSetLevel_bytes hm hl]
  simp only [setLevel, accept, State.mapSelected, State.mapChannels, State.mapActive, State.recoded, State.sweep_eq,
    Instance.endFades_eq_overriddenOn]
  rw [foldl_complete_partial notDone]
  rfl

end Sys2Proof.Machine
end

section
/-!
The fade-clock expiry (R46): its steps in their order, and the service of the Follow List (R73, R74).
-/
namespace Sys2Proof.Machine

/-! ## The service of one follow start (R73) -/

theorem State.serveOne_cons {s : State} {c : CueIdx} {rest : List CueIdx} (h : s.follows = c :: rest) :
    s.serveOne = State.startReported { s with follows := rest } c .follow := by
  simp only [State.serveOne, State.dropFollow, h, List.tail_cons]

theorem State.startReported_refused {s : State} {c : CueIdx} {why : Status} (refused : s.startRefusal c = some why)
    (source : StartSource) : s.startReported c source = s.report (.startRefused c source why) := by
  simp only [State.startReported, refused]

theorem State.startReported_accepted {s : State} {c : CueIdx} {r : CueRecord} (running : s.profile.running = true)
    (defined : s.cues[c] = some r) (room : s.active.length < 4) (source : StartSource) :
    s.startReported c source = s.startCue c source r := by
  simp only [State.startReported, State.startRefusal_eq_none running defined room, defined]

/-! ## An expiry in HOLD or STANDBY (R50, R74) -/

/-- Why a follow start is refused in HOLD and STANDBY (R39, R74). -/
def pausedReason (cues : Vector (Option CueRecord) 32) (c : CueIdx) : Status := if cues[c] = none then .empty else .profile

theorem State.startRefusal_paused {s : State} (paused : s.profile.running = false) (c : CueIdx) :
    s.startRefusal c = some (pausedReason s.cues c) := by
  unfold pausedReason
  split
  · exact State.startRefusal_empty ‹_›
  · exact State.startRefusal_profile ‹_› paused

theorem State.serveOne_paused {s : State} {c : CueIdx} {rest : List CueIdx} (paused : s.profile.running = false)
    (h : s.follows = c :: rest) : s.serveOne =
      State.report { s with follows := rest } (.startRefused c .follow (pausedReason s.cues c)) := by
  rw [State.serveOne_cons h, State.startReported_refused (State.startRefusal_paused (s := { s with follows := rest }) paused c)]

/-- In HOLD and STANDBY the service refuses every follow start, in list order (R74). -/
theorem State.serve_paused {s : State} (paused : s.profile.running = false) {l : List CueIdx} (h : s.follows = l) :
    State.serve l.length s =
      l.foldl (fun u c => u.report (.startRefused c .follow (pausedReason s.cues c))) { s with follows := [] } := by
  induction l generalizing s with
  | nil =>
    show s = { s with follows := [] }
    rw [← h]
  | cons c rest ih =>
    have served := State.serveOne_paused paused h
    have stillPaused : s.serveOne.profile.running = false := by rw [(CueWork.serveOne s).profile, paused]
    have left : s.serveOne.follows = rest := by rw [served, State.report_follows]
    have emptied : { s.serveOne with follows := [] } =
        State.report { s with follows := [] } (.startRefused c .follow (pausedReason s.cues c)) := by
      rw [served]
      exact (commutesWithReport_follows [] { s with follows := rest } _).symm
    rw [List.length_cons, State.serve, ih stillPaused left, emptied, (CueWork.serveOne s).cues, List.foldl_cons]

theorem exec_fadeClockExpiry {s : State} (unheld : s.isHeld = false) : exec .fadeClockExpiry s = .next s.expiry := by
  simp only [exec, execFadeClockExpiry, unheld, Bool.false_eq_true, if_false]

/-- Step 1 of an expiry, field by field (R45, R46, R49). -/
theorem State.tick_eq (s : State) : s.tick =
    { s with clock := max s.clock s.fadeDue, fadeDue := s.fadeDue + 10000, uptime := s.uptime + 1 } := rfl

/-- Settles O36: no step but the first and the last does anything, and the last refuses the whole list. -/
theorem pausedExpiry : Obligations.PausedExpiry := by
  intro s unheld paused
  have ticked : s.tick.profile.running = false := paused
  have noWork : s.tick.cueWork = s.tick := by simp only [State.cueWork, ticked, Bool.false_eq_true, if_false]
  rw [exec_fadeClockExpiry unheld, State.expiry, noWork, State.serveAll, State.serve_paused ticked rfl]
  rfl

/-! ## An expiry in ACTIVE or ECONOMY (R46, R73) -/

theorem State.joinCue_eq (s : State) (c : CueIdx) (source : StartSource) (r : CueRecord) : s.joinCue c source r =
    { s with nextId := nextIdAfter s.issueId, active := s.active ++ [newInstance s.issueId c source r] } := rfl

/-- A follow start that is accepted: announced, then its entries and its sweep (R39, R73). -/
theorem State.serveOne_started {s : State} {c : CueIdx} {rest : List CueIdx} {r : CueRecord} (h : s.follows = c :: rest)
    (defined : s.cues[c] = some r) (running : s.profile.running = true) (room : s.active.length < 4) :
    s.serveOne = (((State.joinCue { s with follows := rest } c .follow r).report (.cueStarted s.issueId c .follow)).startEntries
      s.issueId (r.entries.filter fun e => decide (e.delay = 0))).sweep := by
  rw [State.serveOne_cons h, State.startReported_accepted (s := { s with follows := rest }) running defined room, State.startCue_eq]
  rfl

/-- Settles O37: the expiry is its steps by definition, and the service of a follow start is a start reported. -/
theorem runningExpiry : Obligations.RunningExpiry := by
  refine ⟨fun s unheld running => ?_, fun u c rest h => ?_, fun u => rfl, fun u => rfl⟩
  · have ticked : s.tick.profile.running = true := running
    dsimp only
    rw [exec_fadeClockExpiry unheld, State.expiry, State.serveAll, State.serve_eq_iterate, State.cueWork, if_pos ticked,
      State.tick_eq]
  · intro left
    have refused {why : Status} (refusal : left.startRefusal c = some why) :
        u.serveOne = left.report (.startRefused c .follow why) := by
      rw [State.serveOne_cons h, State.startReported_refused refusal]
    refine ⟨fun undefined => refused (State.startRefusal_empty undefined),
      fun defined paused => refused (State.startRefusal_profile defined paused),
      fun defined running full => refused (State.startRefusal_full defined running full), fun r defined running room => ?_⟩
    rw [State.serveOne_started h defined running room, State.joinCue_eq]
    rfl

end Sys2Proof.Machine
end

section
/-!
The uptime counter (R49): what advances it, what returns it to 0, and that nothing else writes it.
-/
namespace Sys2Proof.Machine

/-! ## Requests and the uptime counter -/

@[simp] theorem State.recode_uptime (s : State) (p : Channel → Bool) : (s.recode p).uptime = s.uptime := by
  rw [State.recode_eq_mapChannels, State.mapChannels_uptime]

@[simp] theorem State.recodeAll_uptime (s : State) : s.recodeAll.uptime = s.uptime := State.recode_uptime s _

@[simp] theorem State.mapSelected_uptime (s : State) (mask : Half) (f : Channel → Channel) :
    (s.mapSelected mask f).uptime = s.uptime := by
  rw [State.mapSelected_eq_mapChannels, State.mapChannels_uptime]

@[simp] theorem State.writeTrims_uptime (s : State) (v : Vector Int 16) : (s.writeTrims v).uptime = s.uptime :=
  State.mapChannels_uptime s _

@[simp] theorem State.writeClass_uptime (s : State) (p : RunProfile) (k : Fin 6) : (s.writeClass p k).uptime = s.uptime := by
  cases p <;> rfl

@[simp] theorem State.applyTrims_uptime (s : State) (v : Vector Int 16) : (s.applyTrims v).uptime = s.uptime := by
  rw [State.applyTrims, State.recode_uptime, State.writeTrims_uptime]

/-- No request writes the uptime counter. -/
theorem RequestEffect.uptime {s t : State} (k : RequestEffect s t) : t.uptime = s.uptime := by
  cases k with
  | setProfile p => rw [State.recodeAll_uptime]
  | setCeilingInForce p k => rw [State.recodeAll_uptime, State.writeClass_uptime]
  | setCeilingAside p k => exact State.writeClass_uptime s p k
  | curveWrite k c => rw [State.writeCurve_eq, State.recode_uptime, State.setCurve]
  | bind mask k => exact State.mapSelected_uptime s mask _
  | trimSet mask trim => rw [trimSet_state, State.mapSelected_uptime]
  | trimSource mask x => rw [setTrimSource_state, State.mapSelected_uptime]
  | setLevel mask level =>
    rw [setLevel_state, (CueWork.sweep _).uptime, State.mapActive_uptime, State.levelled, State.mapSelected_uptime]
  | cueGo c r => exact (CueWork.startCue s c .request r).uptime
  | cueStop i => exact (CueWork.stopInstance s i).uptime
  | cueStopAll => exact (CueWork.stopAll s).uptime
  | loadCurves => rw [State.applyCurves_eq, State.recode_uptime, State.setCurves]
  | loadTrims => exact State.applyTrims_uptime s _
  | replay x => exact (CueWork.launch s _).uptime
  | _ => rfl

@[simp] theorem State.execute_uptime (s : State) (k : RequestKind) (q : Byte) (p : List Byte) :
    (s.execute k (handlerOf k) q p).uptime = s.uptime := by
  rw [State.execute, State.answer, State.offer_uptime]
  exact (handlerOf_effect k p s).uptime

@[simp] theorem State.admission_uptime (s : State) (k : RequestKind) (q : Byte) (p : List Byte) :
    (s.admission k (handlerOf k) q p).uptime = s.uptime := by
  unfold State.admission
  split
  · exact State.offer_uptime s _
  · split <;> simp

/-- No request row writes the uptime counter. -/
theorem exec_request_uptime {c : Instr} {k : RequestKind} {q : Byte} {p : List Byte} {s t : State}
    (row : requestOf c = some (k, q, p)) (h : exec c s = .next t) : t.uptime = s.uptime := by
  have formed : c.wellFormed = true := by
    rw [← Bool.not_eq_false]
    exact fun illFormed => exec_illFormed row illFormed s t h
  rw [exec_request row formed] at h
  rcases (requestStep_cases h).2 with ⟨-, rfl⟩ | ⟨-, -, rfl⟩ | ⟨-, -, ⟨f, -, rfl⟩ | ⟨-, ⟨-, rfl⟩ | ⟨-, rfl⟩⟩⟩
  all_goals simp

/-! ## Events and the uptime counter -/

@[simp] theorem State.judge_uptime (s : State) (q kind : Byte) (p : List Byte) (check : Half) :
    (s.judge q kind p check).uptime = s.uptime := by
  unfold State.judge
  split
  · simp
  · split
    · simp
    · split <;> simp

@[simp] theorem State.takeByte_uptime (s : State) (b : Byte) : (s.takeByte b).uptime = s.uptime := by
  unfold State.takeByte
  split
  · split <;> simp
  · simp
  · simp
  · split
    · simp
    · split <;> simp
  · split <;> simp
  · simp
  · simp

theorem State.takeEdge_uptime (s : State) : s.takeEdge.uptime = s.uptime := by
  obtain ⟨u, o, steps, e⟩ := CueSteps.takeEdge s
  rw [e]
  exact steps.cueWork_of.uptime

theorem State.endProgram_uptime (s : State) (p : Program) (o : ReadBack) : (s.endProgram p o).uptime = s.uptime := by
  have after (u : State) : (u.afterProgram p o).uptime = u.uptime := by
    unfold State.afterProgram
    split <;> [(split <;> simp); rfl]
  rw [State.endProgram, State.clearProgram]
  simp [after, State.settleProgram]

theorem State.applyLoaded_uptime (s : State) : s.applyLoaded.uptime = s.uptime := by
  unfold State.applyLoaded
  split
  · simp [State.applyScene, State.bindScene]
  · rfl

theorem State.playLoaded_uptime (s : State) : s.playLoaded.uptime = s.uptime := by
  unfold State.playLoaded
  split
  · exact (CueWork.launch s _).uptime
  · rfl

theorem State.load_uptime (s : State) : s.load.uptime = s.uptime := by
  have array : s.loadArray.uptime = s.uptime := by simp [State.loadArray, State.takeLoaded, State.readArray]
  have ready (u : State) : u.becomeReady.uptime = u.uptime := rfl
  rw [State.load_eq, ready, State.playLoaded_uptime, State.report_uptime, State.applyLoaded_uptime, array]

theorem State.cutProgram_uptime (s : State) : s.cutProgram.uptime = s.uptime := by
  unfold State.cutProgram
  split <;> rfl

theorem State.endSending_uptime (s : State) (x : Sending) : (s.endSending x).uptime = s.uptime := by
  unfold State.endSending
  split <;> rfl

/-- An expiry advances the uptime counter once, in its first step (R46, R49). -/
theorem State.expiry_uptime (s : State) : s.expiry.uptime = s.uptime + 1 := (CueWork.expiry s).uptime

/-- The reset base returns the uptime counter to 0 (R126). -/
theorem execResetBase_uptime {r1 r0 : PinLevel} {s t : State} (h : execResetBase r1 r0 s = .next t) :
    t.uptime = if s.isHeld then 0 else s.uptime := by
  cases h
  cases hp : s.phase <;> simp only [State.isHeld, hp] <;> rfl

/-- Settles O45: the one step of an expiry writes the counter, the reset base returns it, and no other operation has it among its
fields. -/
theorem uptimeCountsExpiries : Obligations.UptimeCountsExpiries := by
  intro c s t h
  cases c with
  | fadeClockExpiry => cases h; split <;> [rfl; exact s.expiry_uptime]
  | resetBase r1 r0 => exact execResetBase_uptime h
  | goFallingEdge => cases h; split <;> [exact s.takeEdge_uptime; rfl]
  | programCompletion o => cases h; split <;> [rfl; (split <;> [rfl; exact s.endProgram_uptime _ o])]
  | loadCompletion => cases h; split <;> [exact s.load_uptime; rfl]
  | resetCondition cause => cases h; exact s.cutProgram_uptime
  | oeChange l => cases h; rfl
  | byteReceived b => cases h; split <;> [rfl; exact s.takeByte_uptime b]
  | framingError => cases h; rfl
  | interByteTimeout => cases h; split <;> simp
  | transmissionEnd => cases h; split <;> [rfl; (split <;> [rfl; exact s.endSending_uptime _])]
  | linkReset => cases h; split <;> [rfl; (split <;> rfl)]
  | rxdFalls => cases h; split <;> [rfl; (split <;> rfl)]
  | rxdRises => cases h; split <;> rfl
  | _ => exact exec_request_uptime rfl h

end Sys2Proof.Machine
end

section
/-!
Step 4 of an expiry (R46, R48): the newest due entry of a channel starts, and no channel disturbs another.
-/
namespace Sys2Proof.Machine

/-! ## The starts of one channel (R48) -/

/-- The newest instance with an entry for the channel whose delay ends now. -/
def State.newestDue (s : State) (c : ChannelNo) : Option Instance := (s.active.filter fun i => (i.dueOn c).isSome).getLast?

theorem State.startDueOn_none {s : State} {c : ChannelNo} (h : s.newestDue c = none) : s.startDueOn c = s := by
  unfold State.newestDue at h
  rw [State.startDueOn, h]

theorem State.startDueOn_some {s : State} {c : ChannelNo} {i : Instance} {e : CueEntry} (h : s.newestDue c = some i)
    (due : i.dueOn c = some e) : s.startDueOn c = (s.loseDue i.id c).startEntry i.id e := by
  unfold State.newestDue at h
  simp only [State.startDueOn, h, due, State.loseDue]

theorem State.dueOn_of_newestDue {s : State} {c : ChannelNo} {i : Instance} (h : s.newestDue c = some i) :
    ∃ e, i.dueOn c = some e :=
  Option.isSome_iff_exists.1 (List.mem_filter.1 (List.mem_of_getLast? h)).2

theorem Instance.entryDue_iff (i : Instance) (x : EntryCopy) :
    i.entryDue x = true ↔ x.state = .waiting ∧ x.entry.delay = i.elapsed := by
  simp only [Instance.entryDue, Bool.and_eq_true, decide_eq_true_eq]

/-- Nothing of the instance is due on the channel. -/
def Instance.NoneDue (i : Instance) (c : ChannelNo) : Prop :=
  ∀ x ∈ i.entries, ¬(x.entry.channel = c ∧ x.state = .waiting ∧ x.entry.delay = i.elapsed)

theorem Instance.dueOn_eq_none {i : Instance} {c : ChannelNo} (h : i.NoneDue c) : i.dueOn c = none := by
  rw [Instance.dueOn, Option.map_eq_none_iff, List.find?_eq_none]
  intro x hx
  simpa only [Bool.and_eq_true, decide_eq_true_eq, Instance.entryDue_iff] using h x hx

/-- The due entry is found: an instance names the channel once (R24). -/
theorem Instance.dueOn_eq_of_mem {i : Instance} {e : CueEntry} (channels : (i.entries.map fun x => x.entry.channel).Nodup)
    (he : { entry := e, state := .waiting } ∈ i.entries) (delay : e.delay = i.elapsed) : i.dueOn e.channel = some e := by
  obtain ⟨e', found⟩ := Option.isSome_iff_exists.1 (Instance.dueOn_isSome he ⟨rfl, delay⟩)
  obtain ⟨hc, -, x, hx, rfl⟩ := Instance.dueOn_eq_some found
  rw [found, List.inj_on_of_nodup_map channels hx he hc]

/-- The due entry for the channel, if there is one, TAKEN (R48). -/
def Instance.losingDue (c : ChannelNo) (j : Instance) : Instance := { j with
  entries := j.entries.map fun x =>
    if x.entry.channel = c ∧ x.state = .waiting ∧ x.entry.delay = j.elapsed then { x with state := .taken } else x }

theorem Instance.loseDue_eq_losingDue (j : Instance) (c : ChannelNo) : j.loseDue c = j.losingDue c := by
  simp only [Instance.loseDue, Instance.losingDue, Instance.entryDue_iff]

theorem Instance.losingDue_eq_self {j : Instance} {c : ChannelNo} (h : j.NoneDue c) : j.losingDue c = j := by
  have same : (j.entries.map fun x => if x.entry.channel = c ∧ x.state = .waiting ∧ x.entry.delay = j.elapsed then
      { x with state := .taken } else x) = j.entries := by
    conv_rhs => rw [← List.map_id j.entries]
    exact List.map_congr_left fun x hx => if_neg (h x hx)
  rw [Instance.losingDue, same]

section Split

variable {s : State} {c : ChannelNo} {older newer : List Instance} {i : Instance}

theorem State.newestDue_split (split : s.active = older ++ i :: newer) (due : (i.dueOn c).isSome = true)
    (later : ∀ j ∈ newer, j.NoneDue c) : s.newestDue c = some i := by
  have noneLater : (newer.filter fun j => (j.dueOn c).isSome) = [] :=
    List.filter_eq_nil_iff.2 fun j hj => by rw [Instance.dueOn_eq_none (later j hj)]; exact Bool.false_ne_true
  rw [State.newestDue, split, List.filter_append, List.filter_cons, if_pos due, noneLater, List.getLast?_concat]

/-- The older instances alone have something to lose (R48). -/
theorem State.loseDue_split (split : s.active = older ++ i :: newer) (ids : (s.active.map Instance.id).Nodup)
    (later : ∀ j ∈ newer, j.NoneDue c) :
    s.loseDue i.id c = { s with active := older.map (Instance.losingDue c) ++ i :: newer } := by
  obtain ⟨ho, hn, -⟩ := ids_of_split (split ▸ ids)
  have olderLose : (older.map fun j => if j.id = i.id then j else j.loseDue c) = older.map (Instance.losingDue c) :=
    List.map_congr_left fun j hj => by rw [if_neg (ho j hj), Instance.loseDue_eq_losingDue]
  have newerStand : (newer.map fun j => if j.id = i.id then j else j.loseDue c) = newer := by
    conv_rhs => rw [← List.map_id newer]
    exact List.map_congr_left fun j hj => by
      rw [if_neg (hn j hj), Instance.loseDue_eq_losingDue, Instance.losingDue_eq_self (later j hj)]
      rfl
  rw [State.loseDue, State.mapActive, split, List.map_append, List.map_cons, if_pos rfl, olderLose, newerStand]

end Split

theorem State.newestDue_none {s : State} {c : ChannelNo} (h : ∀ j ∈ s.active, j.NoneDue c) : s.newestDue c = none := by
  rw [State.newestDue, List.getLast?_eq_none_iff, List.filter_eq_nil_iff]
  intro j hj
  rw [Instance.dueOn_eq_none (h j hj)]
  exact Bool.false_ne_true

/-- The starts of a channel leave nothing due on it, whatever the state (R48). -/
theorem not_dueOn_startDueOn (s : State) (c : ChannelNo) (id : Byte) : ¬ DueOn (s.startDueOn c).active id c := by
  intro due
  rcases s.startDueOn_cases c with ⟨same, noneDue⟩ | ⟨i, -, x, -, rfl, -, started⟩
  · rw [same] at due
    exact noneDue id due
  · rw [started] at due
    obtain ⟨due, notStarted⟩ := dueOn_startEntry due
    rw [State.loseDue_active] at due
    obtain ⟨n, y, -, hc, waiting, delay⟩ := dueOn_restate.1 due
    unfold lostDue at waiting
    split at waiting
    · cases waiting
    · rename_i kept
      exact kept ⟨fun own => notStarted ⟨own, rfl⟩, hc, waiting, delay⟩

/-! ## A state as one channel sees it -/

/-- An instance with its entries for a channel alone. -/
def Instance.onlyOn (c : ChannelNo) (i : Instance) : Instance :=
  { i with entries := i.entries.filter fun x => decide (x.entry.channel = c) }

/-- What a channel's own starts can read of the state: every other channel is blanked, and so are the entries for it. -/
def State.onlyOn (s : State) (c : ChannelNo) : State :=
  (s.mapChannels fun d ch => if d = c then ch else baseChannel).mapActive (Instance.onlyOn c)

@[simp] theorem State.onlyOn_active (s : State) (c : ChannelNo) : (s.onlyOn c).active = s.active.map (Instance.onlyOn c) := by
  rw [State.onlyOn, State.mapActive_active, State.mapChannels_active]

@[simp] theorem State.onlyOn_channel (s : State) (c : ChannelNo) : (s.onlyOn c).channels[c] = s.channels[c] := by
  rw [State.onlyOn, State.mapActive_channels, State.mapChannels_channels, if_pos rfl]

@[simp] theorem State.recoded_onlyOn (s : State) (c : ChannelNo) : (s.onlyOn c).recoded = s.recoded := by
  funext ch
  simp only [State.recoded, State.onlyOn, State.codeOf_mapActive, State.codeOf_mapChannels]

theorem State.onlyOn_mapActive (s : State) {c : ChannelNo} {f : Instance → Instance} (h : ∀ i, (f i).onlyOn c = f (i.onlyOn c)) :
    (s.mapActive f).onlyOn c = (s.onlyOn c).mapActive f := by
  have same : (s.active.map f).map (Instance.onlyOn c) = (s.active.map (Instance.onlyOn c)).map f := by
    simp only [List.map_map]
    exact List.map_congr_left fun i _ => h i
  simp only [State.onlyOn, State.mapActive, State.mapChannels, same]

/-- A write of the channel's own record is the same as the channel sees it. -/
theorem State.onlyOn_mapChannels (s : State) {c : ChannelNo} {f : ChannelNo → Channel → Channel}
    (h : ∀ d ch, d ≠ c → f d ch = ch) : (s.mapChannels f).onlyOn c = (s.onlyOn c).mapChannels f := by
  have own (d : ChannelNo) (ch : Channel) : f d (if d = c then ch else baseChannel) = if d = c then f d ch else baseChannel := by
    split
    · rfl
    · exact h d _ ‹_›
  simp only [State.onlyOn, State.mapActive, State.mapChannels, Fin.getElem_fin, Vector.getElem_ofFn, Fin.eta, own]

/-- A change of entry states is the same as the channel sees it. -/
theorem Instance.onlyOn_mapEntries (i : Instance) (c : ChannelNo) {g : EntryCopy → EntryCopy} (hg : ∀ x, (g x).entry = x.entry) :
    Instance.onlyOn c { i with entries := i.entries.map g } = { i.onlyOn c with entries := (i.onlyOn c).entries.map g } := by
  simp only [Instance.onlyOn, List.filter_map, Function.comp_def, hg]

/-! ### A channel's starts, as the channel sees them -/

theorem State.onlyOn_setEntry (s : State) (id : Byte) (c : ChannelNo) (out : EntryState) :
    (s.setEntry id c out).onlyOn c = (s.onlyOn c).setEntry id c out := by
  refine s.onlyOn_mapActive fun i => ?_
  have sameId : (i.onlyOn c).id = i.id := rfl
  rw [sameId]
  split
  · exact i.onlyOn_mapEntries c fun x => by split <;> rfl
  · rfl

theorem State.onlyOn_takeOver (s : State) (c : ChannelNo) : (s.takeOver c).onlyOn c = (s.onlyOn c).takeOver c :=
  s.onlyOn_mapActive fun i => i.onlyOn_mapEntries c fun x => by split <;> rfl

theorem State.onlyOn_loseDue (s : State) (id : Byte) (c : ChannelNo) : (s.loseDue id c).onlyOn c = (s.onlyOn c).loseDue id c := by
  refine s.onlyOn_mapActive fun i => ?_
  have sameId : (i.onlyOn c).id = i.id := rfl
  rw [sameId]
  split
  · rfl
  · exact i.onlyOn_mapEntries c fun x => by split <;> rfl

theorem State.onlyOn_writeLevel (s : State) (c : ChannelNo) (level : Nat) (o : Option Byte) :
    (s.writeLevel c level o).onlyOn c = (s.onlyOn c).writeLevel c level o := by
  rw [State.writeLevel_eq_mapChannels, State.writeLevel_eq_mapChannels, State.recoded_onlyOn]
  exact s.onlyOn_mapChannels fun d ch other => if_neg other

theorem State.onlyOn_writeOwner (s : State) (c : ChannelNo) (o : Option Byte) :
    (s.writeOwner c o).onlyOn c = (s.onlyOn c).writeOwner c o :=
  s.onlyOn_mapChannels fun _ _ other => if_neg other

/-- Which of two instances is newer rests on the ids alone (R35). -/
theorem newerThan_map (l : List Instance) (c : ChannelNo) (id owner : Byte) :
    newerThan (l.map (Instance.onlyOn c)) id owner = newerThan l id owner := by
  have ids (p : Byte → Bool) : ((fun i : Instance => p i.id) ∘ Instance.onlyOn c) = fun i => p i.id := rfl
  simp only [newerThan, List.dropWhile_map, ← List.map_drop, List.any_map, ids fun x => decide (x ≠ id),
    ids fun x => decide (x = owner)]

theorem State.heldByNewer_onlyOn (s : State) (id : Byte) (c : ChannelNo) : (s.onlyOn c).heldByNewer id c = s.heldByNewer id c := by
  simp only [State.heldByNewer, State.onlyOn_channel, State.onlyOn_active, newerThan_map]

theorem State.onlyOn_startEntry (s : State) (id : Byte) (e : CueEntry) :
    (s.startEntry id e).onlyOn e.channel = (s.onlyOn e.channel).startEntry id e := by
  simp only [State.startEntry, State.heldByNewer_onlyOn, State.onlyOn_channel]
  split
  · rw [State.onlyOn_setEntry]
  · split
    · rw [State.onlyOn_writeLevel, State.onlyOn_setEntry, State.onlyOn_takeOver]
    · rw [State.onlyOn_writeOwner, State.onlyOn_setEntry, State.onlyOn_takeOver]

theorem Instance.dueOn_onlyOn (i : Instance) (c : ChannelNo) : (i.onlyOn c).dueOn c = i.dueOn c := by
  have due (x : EntryCopy) : (i.onlyOn c).entryDue x = i.entryDue x := rfl
  have found : ((i.entries.filter fun x => decide (x.entry.channel = c)).find? fun x =>
      decide (x.entry.channel = c) && i.entryDue x) =
      i.entries.find? fun x => decide (x.entry.channel = c) && i.entryDue x := by
    rw [List.find?_filter]
    congr 1
    funext x
    cases decide (x.entry.channel = c) <;> simp
  simp only [Instance.dueOn, due]
  rw [← found]
  rfl

theorem State.newestDue_onlyOn (s : State) (c : ChannelNo) : (s.onlyOn c).newestDue c = (s.newestDue c).map (Instance.onlyOn c) := by
  simp only [State.newestDue, State.onlyOn_active, List.filter_map, Function.comp_def, Instance.dueOn_onlyOn, List.getLast?_map]

/-- A channel's starts read and write what the channel sees, alone (R48). -/
theorem State.onlyOn_startDueOn (s : State) (c : ChannelNo) : (s.startDueOn c).onlyOn c = (s.onlyOn c).startDueOn c := by
  cases h : s.newestDue c with
  | none =>
    have noneSeen : (s.onlyOn c).newestDue c = none := by rw [State.newestDue_onlyOn, h]; rfl
    rw [State.startDueOn_none h, State.startDueOn_none noneSeen]
  | some i =>
    obtain ⟨e, due⟩ := State.dueOn_of_newestDue h
    obtain ⟨rfl, -⟩ := Instance.dueOn_eq_some due
    have seen : (s.onlyOn e.channel).newestDue e.channel = some (i.onlyOn e.channel) := by rw [State.newestDue_onlyOn, h]; rfl
    have dueSeen : (i.onlyOn e.channel).dueOn e.channel = some e := by rw [Instance.dueOn_onlyOn, due]
    rw [State.startDueOn_some h due, State.startDueOn_some seen dueSeen, State.onlyOn_startEntry, State.onlyOn_loseDue]
    rfl

/-! ### Many channels' starts, as one channel sees them -/

/-- What happens on one channel, another does not see (R48). -/
theorem OnChannel.onlyOn_eq {c d : ChannelNo} {s t : State} (h : OnChannel d s t) (other : c ≠ d) : t.onlyOn c = s.onlyOn c := by
  have assembled (l : List Instance) : l.map (Instance.onlyOn c) =
      List.zipWith (fun (j : Instance) (xs : List EntryCopy) => { j with entries := xs })
        (l.map fun j : Instance => { j with entries := j.entries.map fun x : EntryCopy => { x with state := EntryState.waiting } })
        (l.map fun j => j.entries.filter fun x => decide (x.entry.channel = c)) := by
    rw [List.zipWith_map, List.zipWith_self]
    rfl
  have active : t.active.map (Instance.onlyOn c) = s.active.map (Instance.onlyOn c) := by
    rw [assembled, assembled, h.copies, h.entries c other]
  have channels : (Vector.ofFn fun k : ChannelNo => if k = c then t.channels[k] else baseChannel) =
      Vector.ofFn fun k : ChannelNo => if k = c then s.channels[k] else baseChannel := by
    congr 1
    funext k
    split
    · rename_i hk
      rw [hk]
      exact h.channels c other
    · rfl
  rw [h.rest]
  simp only [State.onlyOn, State.mapActive, State.mapChannels, active, channels]

theorem onlyOn_foldl_of_not_mem {c : ChannelNo} {cs : List ChannelNo} (h : c ∉ cs) (s : State) :
    (cs.foldl State.startDueOn s).onlyOn c = s.onlyOn c := by
  induction cs generalizing s with
  | nil => rfl
  | cons d cs ih =>
    rw [List.mem_cons, not_or] at h
    obtain ⟨other, rest⟩ := h
    rw [List.foldl_cons, ih rest, (OnChannel.startDueOn s d).onlyOn_eq other]

/-- Of the starts of several channels, a channel sees its own (R48). -/
theorem onlyOn_foldl_of_mem {c : ChannelNo} {cs : List ChannelNo} (once : cs.Nodup) (h : c ∈ cs) (s : State) :
    (cs.foldl State.startDueOn s).onlyOn c = (s.startDueOn c).onlyOn c := by
  induction cs generalizing s with
  | nil => cases h
  | cons d cs ih =>
    obtain ⟨notAgain, once⟩ := List.nodup_cons.1 once
    rw [List.foldl_cons]
    by_cases here : c = d
    · subst here
      exact onlyOn_foldl_of_not_mem notAgain _
    · have later : c ∈ cs := (List.mem_cons.1 h).resolve_left here
      rw [ih once later, State.onlyOn_startDueOn, (OnChannel.startDueOn s d).onlyOn_eq here, State.onlyOn_startDueOn]

/-- Step 4 of an expiry leaves each channel, and the entries for it, as that channel's own starts do (R48). -/
theorem State.onlyOn_startDue (s : State) (c : ChannelNo) : s.startDue.onlyOn c = (s.startDueOn c).onlyOn c :=
  onlyOn_foldl_of_mem (List.nodup_finRange 16) (List.mem_finRange c) s

/-- What is due on a channel is seen by it. -/
theorem dueOn_onlyOn {l : List Instance} {id : Byte} {c : ChannelNo} : DueOn (l.map (Instance.onlyOn c)) id c ↔ DueOn l id c := by
  constructor
  · rintro ⟨n, x, ⟨j, hj, hid, hn, hx⟩, hc, due⟩
    obtain ⟨i, hi, rfl⟩ := List.mem_map.1 hj
    exact ⟨n, x, ⟨i, hi, hid, hn, (List.mem_filter.1 hx).1⟩, hc, due⟩
  · rintro ⟨n, x, ⟨i, hi, hid, hn, hx⟩, hc, due⟩
    exact ⟨n, x, ⟨_, List.mem_map_of_mem hi, hid, hn, List.mem_filter.2 ⟨hx, decide_eq_true hc⟩⟩, hc, due⟩

/-- After step 4 of an expiry nothing is due, whatever the state (R48). -/
theorem not_dueOn_startDue (s : State) (id : Byte) (c : ChannelNo) : ¬ DueOn s.startDue.active id c := by
  rw [← dueOn_onlyOn, ← State.onlyOn_active, State.onlyOn_startDue, State.onlyOn_active, dueOn_onlyOn]
  exact not_dueOn_startDueOn s c id

/-! ### What step 4 leaves alone -/

/-- The instances of a list with every entry WAITING: their ids, cues, times and entries, without the entries' states. -/
def unstarted (l : List Instance) : List Instance :=
  l.map fun j => { j with entries := j.entries.map fun x => { x with state := .waiting } }

/-- Starts on channels, one after another, change channels and the states of entries alone (R48). -/
theorem startDueOn_foldl_frame (cs : List ChannelNo) (s : State) :
    unstarted (cs.foldl State.startDueOn s).active = unstarted s.active ∧
      cs.foldl State.startDueOn s =
        { s with channels := (cs.foldl State.startDueOn s).channels, active := (cs.foldl State.startDueOn s).active } := by
  induction cs generalizing s with
  | nil => exact ⟨rfl, rfl⟩
  | cons c cs ih =>
    obtain ⟨copies, rest⟩ := ih (s.startDueOn c)
    have first := OnChannel.startDueOn s c
    rw [List.foldl_cons]
    exact ⟨copies.trans first.copies, rest.trans (congrArg (fun u : State => { u with
      channels := (cs.foldl State.startDueOn (s.startDueOn c)).channels
      active := (cs.foldl State.startDueOn (s.startDueOn c)).active }) first.rest)⟩

/-- Settles O39: a channel's starts read only what the channel sees, and no other channel's starts change that. -/
theorem newestDueEntryStarts : Obligations.NewestDueEntryStarts := by
  refine ⟨?_, fun s c none => State.startDueOn_none (State.newestDue_none none), fun s => ?_⟩
  · rintro s c older newer i e split ids channels he rfl delay later
    have due : i.dueOn e.channel = some e := Instance.dueOn_eq_of_mem (channels i (by simp [split])) he delay
    rw [State.startDueOn_some (State.newestDue_split split (by rw [due]; rfl) later) due, State.loseDue_split split ids later]
    rfl
  · obtain ⟨copies, rest⟩ := startDueOn_foldl_frame (List.finRange 16) s
    refine ⟨fun c => ⟨?_, ?_⟩, fun j hj x hx due => ?_, copies, rest⟩
    · rw [← State.onlyOn_channel, State.onlyOn_startDue, State.onlyOn_channel]
    · have seen := congrArg (fun u : State => u.active.map Instance.entries) (s.onlyOn_startDue c)
      simpa only [State.onlyOn_active, List.map_map, Function.comp_def, Instance.onlyOn] using seen
    · exact not_dueOn_startDue s j.id x.entry.channel ⟨j.elapsed, x, ⟨j, hj, rfl, rfl, hx⟩, rfl, due⟩

end Sys2Proof.Machine
end

section
/-!
The GO line (R67, R68, R69) and the Arm Slot (R64): which edges are taken, what the armed cue's start or refusal makes of the state, and
that the Arm Slot names a defined cue record after every command.
-/
namespace Sys2Proof.Machine

/-! ## Which edges are taken (R67) -/

/-- An edge is taken in READY, 20 ms after the last taken one or later (R67). -/
theorem State.edgeTaken_iff (s : State) :
    s.edgeTaken = true ↔ s.phase = .ready ∧ ∀ t, s.goEdge = some t → t + 20000 ≤ s.clock := by
  rw [State.edgeTaken, Bool.and_eq_true, decide_eq_true_eq]
  refine and_congr_right fun _ => ?_
  cases s.goEdge with
  | none => simp
  | some t =>
    have interval : Config.debounce ≤ s.clock - t ↔ t + 20000 ≤ s.clock := by rw [Config.debounce]; omega
    simp [interval]

theorem exec_goFallingEdge_taken {s : State} (taken : s.edgeTaken = true) : exec .goFallingEdge s = .next s.takeEdge :=
  congrArg Host.Outcome.next (if_pos taken)

theorem exec_goFallingEdge_untaken {s : State} (untaken : ¬ s.edgeTaken = true) : exec .goFallingEdge s = .next s :=
  congrArg Host.Outcome.next (if_neg untaken)

/-! ## A taken edge (R68, R69) -/

theorem armedAfter_eq (a : Armed) : armedAfter a = if a.mode = .once then none else some a := by
  unfold armedAfter
  cases a.mode <;> rfl

theorem State.takeEdge_empty {s : State} (empty : s.armed = none) : s.takeEdge = s.markEdge := by
  rw [State.takeEdge, empty]

theorem State.takeEdge_fires {s : State} {a : Armed} (armed : s.armed = some a) : s.takeEdge = s.markEdge.fire a := by
  rw [State.takeEdge, armed]

/-- A refused start is reported and the arm kept (R69). -/
theorem State.fire_refused {s : State} {a : Armed} {why : Status} (refused : s.startRefusal a.cue = some why) :
    s.fire a = s.report (.startRefused a.cue .goLine why) := by
  rw [State.fire, State.startReported, refused]

/-- An accepted start is that of the cue, and the Arm Slot is then set by its mode (R68). -/
theorem State.fire_accepted {s : State} {a : Armed} {r : CueRecord} (accepted : s.startRefusal a.cue = none)
    (defined : s.cues[a.cue] = some r) : s.fire a = (s.startCue a.cue .goLine r).setArmed (armedAfter a) := by
  rw [State.fire, State.startReported, accepted, defined]

/-- A taken edge leaves the Arm Slot as it is or empties it (R68, R69). -/
theorem State.takeEdge_armed (s : State) : s.takeEdge.armed = s.armed ∨ s.takeEdge.armed = none := by
  cases armed : s.armed with
  | none => exact .inr (by rw [State.takeEdge_empty armed]; exact armed)
  | some a =>
    rw [State.takeEdge_fires armed, State.fire]
    split
    · show armedAfter a = some a ∨ armedAfter a = none
      rw [armedAfter_eq]
      split <;> simp
    · exact .inl ((CueWork.startReported _ _ _).armed.trans armed)

theorem State.takeEdge_cues (s : State) : s.takeEdge.cues = s.cues := by
  obtain ⟨u, o, steps, e⟩ := CueSteps.takeEdge s
  rw [e]
  exact steps.cueWork_of.cues

/-- Settles O43: the filter's test decides whether the edge is taken, and the checks of R39 whether the armed cue starts. -/
theorem goEdgeFiresTheArmedCue : Obligations.GoEdgeFiresTheArmedCue := by
  intro s
  refine ⟨fun early => exec_goFallingEdge_untaken fun taken => ?_, fun ready late => ?_⟩
  · obtain ⟨ready, late⟩ := s.edgeTaken_iff.1 taken
    rcases early with unready | ⟨t, last, recent⟩
    · exact unready ready
    · exact Nat.not_lt_of_le (late t last) recent
  · have taken : s.edgeTaken = true := by
      refine s.edgeTaken_iff.2 ⟨ready, fun t last => ?_⟩
      rcases late with first | ⟨t', last', passed⟩
      · rw [first] at last
        cases last
      · rwa [← Option.some.inj (last'.symm.trans last)]
    rw [exec_goFallingEdge_taken taken]
    refine ⟨fun empty => by rw [State.takeEdge_empty empty]; rfl, fun a armed defined => ?_⟩
    rw [State.takeEdge_fires armed]
    refine ⟨fun paused => ?_, fun running full => ?_, fun r running record room => ?_⟩
    · rw [State.fire_refused (State.startRefusal_profile (s := s.markEdge) defined paused)]
      rfl
    · rw [State.fire_refused (State.startRefusal_full (s := s.markEdge) defined running full)]
      rfl
    · rw [State.fire_accepted (State.startRefusal_eq_none (s := s.markEdge) running record room) record, State.startCue_eq,
        armedAfter_eq]
      rfl

/-! ## Operations on channels alone, as cue work -/

namespace CueWork

theorem recode (s : State) (p : Channel → Bool) : CueWork s (s.recode p) := mapChannels s _

theorem recodeAll (s : State) : CueWork s s.recodeAll := recode s _

theorem mapSelected (s : State) (mask : Half) (f : Channel → Channel) : CueWork s (s.mapSelected mask f) := mapChannels s _

theorem writeTrims (s : State) (v : Vector Int 16) : CueWork s (s.writeTrims v) := mapChannels s _

theorem applyTrims (s : State) (v : Vector Int 16) : CueWork s (s.applyTrims v) := (writeTrims s v).trans (recode _ _)

theorem trimSet (s : State) (mask : Half) (trim : Int) : CueWork s (Machine.trimSet mask trim s).1 := by
  rw [trimSet_state]
  exact mapSelected s mask _

theorem trimSource (s : State) (mask : Half) (x : TrimSource) : CueWork s (setTrimSource mask x s).1 := by
  rw [setTrimSource_state]
  exact mapSelected s mask _

theorem setLevel (s : State) (mask : Half) (level : Nat) : CueWork s (Machine.setLevel mask level s).1 := by
  rw [setLevel_state]
  exact ((mapSelected s mask _).trans (mapActive _ _)).trans (sweep _)

end CueWork

/-! ## The Arm Slot names a defined cue (R64) -/

/-- The Cue Table and the Arm Slot are the same. -/
def SameArming (s t : State) : Prop := t.cues = s.cues ∧ t.armed = s.armed

namespace ArmDefined

variable {s t : State}

theorem congr (h : ArmDefined s) (same : SameArming s t) : ArmDefined t := by
  obtain ⟨cues, armed⟩ := same
  rw [ArmDefined, cues, armed]
  exact h

/-- Cue work writes neither the Cue Table nor the Arm Slot. -/
theorem cueWork (h : ArmDefined s) (work : CueWork s t) : ArmDefined t := h.congr ⟨work.cues, work.armed⟩

theorem of_empty (empty : s.armed = none) : ArmDefined s := by
  rw [ArmDefined, empty]
  simp

/-! ### The requests -/

/-- A record written into a place of the Cue Table leaves every defined cue defined (R26). -/
theorem withRecord (h : ArmDefined s) (c : CueIdx) (r : CueRecord) : ArmDefined { s with cues := s.cues.set c (some r) } := by
  intro a armed
  rcases eq_or_ne c a.cue with rfl | other
  · simp
  · simpa [Fin.val_ne_of_ne other] using h a armed

/-- A place is cleared only when the Arm Slot does not name it (R29). -/
theorem withoutRecord (h : ArmDefined s) {c : CueIdx} (unarmed : s.isArmed c = false) :
    ArmDefined { s with cues := s.cues.set c none } := by
  intro a armed
  have other : c ≠ a.cue := by
    rintro rfl
    exact Bool.eq_false_iff.1 unarmed ((s.isArmed_iff a.cue).2 ⟨a.mode, armed⟩)
  simpa [Fin.val_ne_of_ne other] using h a armed

/-- A cue is armed only when it is defined (R65). -/
theorem withArm {c : CueIdx} (defined : s.cues[c] ≠ none) (m : ArmMode) : ArmDefined { s with armed := some ⟨c, m⟩ } := by
  rintro _ ⟨⟩
  exact defined

theorem writeClass (h : ArmDefined s) (p : RunProfile) (k : Fin 6) : ArmDefined (s.writeClass p k) := by
  cases p <;> exact h.congr ⟨rfl, rfl⟩

theorem writeCurve (h : ArmDefined s) (k : SlotNo) (c : Curve) : ArmDefined (s.writeCurve k c) := by
  have written : ArmDefined (s.setCurve k c) := h.congr ⟨rfl, rfl⟩
  exact written.cueWork (.recode _ _)

theorem applyCurves (h : ArmDefined s) (v : Vector Curve 7) : ArmDefined (s.applyCurves v) := by
  have written : ArmDefined (s.setCurves v) := h.congr ⟨rfl, rfl⟩
  exact written.cueWork (.recode _ _)

theorem setProfile (h : ArmDefined s) (p : Profile) :
    ArmDefined { s with profile := p, heldFrom := s.heldFromAfter p }.recodeAll := by
  have written : ArmDefined { s with profile := p, heldFrom := s.heldFromAfter p } := h.congr ⟨rfl, rfl⟩
  exact written.cueWork (.recodeAll _)

/-- No request undefines the armed cue: the four that write the Cue Table or the Arm Slot see to it, the others write neither. -/
theorem effect (h : ArmDefined s) (k : RequestEffect s t) : ArmDefined t := by
  cases k with
  | cueLoad c r => exact h.withRecord c r
  | cueClear c unarmed => exact h.withoutRecord unarmed
  | cueArm c m defined => exact withArm defined m
  | cueDisarm => exact of_empty rfl
  | setProfile p => exact h.setProfile p
  | setCeilingInForce p k => exact (h.writeClass p k).cueWork (.recodeAll _)
  | setCeilingAside p k => exact h.writeClass p k
  | curveWrite k c => exact h.writeCurve k c
  | bind mask k => exact h.cueWork (.mapSelected s mask _)
  | trimSet mask trim => exact h.cueWork (.trimSet s mask trim)
  | trimSource mask x => exact h.cueWork (.trimSource s mask x)
  | setLevel mask level => exact h.cueWork (.setLevel s mask level)
  | cueGo c r => exact h.cueWork (.startCue s c .request r)
  | cueStop i => exact h.cueWork (.stopInstance s i)
  | cueStopAll => exact h.cueWork (.stopAll s)
  | loadCurves => exact h.applyCurves _
  | loadTrims => exact h.cueWork (.applyTrims s _)
  | replay x => exact h.cueWork (.launch s _)
  | _ => exact h.congr ⟨rfl, rfl⟩

/-! ### The events -/

theorem expiry (h : ArmDefined s) : ArmDefined s.expiry := by
  have ticked : ArmDefined s.tick := h.congr ⟨rfl, rfl⟩
  exact ticked.cueWork (.expiry s)

theorem takeEdge (h : ArmDefined s) : ArmDefined s.takeEdge := by
  rcases s.takeEdge_armed with kept | emptied
  · exact h.congr ⟨s.takeEdge_cues, kept⟩
  · exact of_empty emptied

theorem afterProgram (h : ArmDefined s) (p : Program) (o : ReadBack) : ArmDefined (s.afterProgram p o) := by
  unfold State.afterProgram
  split
  · split
    · exact h.cueWork (.applyTrims s _)
    · exact h
  · exact h

theorem endProgram (h : ArmDefined s) (p : Program) (o : ReadBack) : ArmDefined (s.endProgram p o) := by
  have settled : ArmDefined (s.settleProgram p o) := h.congr ⟨rfl, rfl⟩
  exact ((settled.cueWork (.report _ _)).afterProgram p o).congr ⟨rfl, rfl⟩

theorem cutProgram (h : ArmDefined s) : ArmDefined s.cutProgram := by
  unfold State.cutProgram
  split
  · exact h
  · exact h.congr ⟨rfl, rfl⟩

theorem loadArray (h : ArmDefined s) : ArmDefined s.loadArray := by
  have taken : ArmDefined s.readArray.takeLoaded := h.congr ⟨rfl, rfl⟩
  exact (taken.cueWork (.writeTrims _ _)).cueWork (.recodeAll _)

theorem applyLoaded (h : ArmDefined s) : ArmDefined s.applyLoaded := by
  unfold State.applyLoaded
  split
  · rename_i x _
    have bound : ArmDefined (s.bindScene x) := h.cueWork (.mapChannels s _)
    have profiled : ArmDefined { s.bindScene x with
        profile := x.profile.toProfile
        activeClass := x.activeClass
        economyClass := x.economyClass } := bound.congr ⟨rfl, rfl⟩
    rw [State.applyScene]
    exact profiled.cueWork (.recodeAll _)
  · exact h

theorem playLoaded (h : ArmDefined s) : ArmDefined s.playLoaded := by
  unfold State.playLoaded
  split
  · exact h.cueWork (.launch s _)
  · exact h

/-- Load completion neither arms a cue nor writes a cue record (R129 to R133). -/
theorem load (h : ArmDefined s) : ArmDefined s.load := by
  have reported : ArmDefined (s.loadArray.applyLoaded.report s.loadArray.applyLoaded.startBody) :=
    h.loadArray.applyLoaded.cueWork (.report _ _)
  have ready {u : State} (hu : ArmDefined u) : ArmDefined u.becomeReady := hu.congr ⟨rfl, rfl⟩
  rw [State.load_eq]
  exact ready reported.playLoaded

theorem endSending (h : ArmDefined s) (x : Sending) : ArmDefined (s.endSending x) := by
  unfold State.endSending
  split <;> exact h.congr ⟨rfl, rfl⟩

/-- No command undefines the armed cue. -/
theorem change (h : ArmDefined s) (k : Change s t) : ArmDefined t := by
  cases k with
  | answers f => exact h.congr (by simp [SameArming])
  | executes k q p => exact (h.effect (handlerOf_effect k p s)).congr ⟨rfl, rfl⟩
  | expiry => exact h.expiry
  | takeEdge => exact h.takeEdge
  | endProgram p o => exact h.endProgram p o
  | load => exact h.load
  | resetCondition c => exact h.cutProgram.congr ⟨rfl, rfl⟩
  | base => exact of_empty rfl
  | timeout => exact h.congr (by simp [SameArming])
  | endSending x => exact h.endSending x
  | _ => exact h.congr ⟨rfl, rfl⟩

end ArmDefined

/-- Settles O32: a cue is armed only when defined, a taken edge can but empty the Arm Slot, and the armed cue's place is not
cleared. -/
theorem armedCueStaysDefined : Obligations.ArmedCueStaysDefined := fun _ _ _ h k => h.change (exec_change k)

end Sys2Proof.Machine
end

section
/-!
The requests on profiles and ceilings (chapter 5): SET_PROFILE, the ceiling that stands through HOLD, and SET_CEILING.
-/
namespace Sys2Proof.Machine

/-- Every drive code recomputed, channel by channel (R9). -/
theorem State.recodeAll_eq_allRecoded (s : State) : s.recodeAll = { s with channels := allRecoded s } := rfl

/-! ## SET_PROFILE (R82, R83, R87) -/

theorem handleSetProfile_code (p : Profile) (s : State) :
    handleSetProfile [p.code] s = if p = .hold ∧ s.profile = .standby then refuse s .profile else setProfile p s := by
  simp only [handleSetProfile, profile?_code]

/-- The state with `p` in force, before the codes are recomputed (R82, R83). -/
def State.enterProfile (s : State) (p : Profile) : State := { s with profile := p, heldFrom := s.heldFromAfter p }

theorem setProfile_same (s : State) : setProfile s.profile s = accept s [] := if_pos rfl

theorem setProfile_other {p : Profile} {s : State} (other : p ≠ s.profile) :
    setProfile p s = accept (s.enterProfile p).recodeAll [] := if_neg other

/-- Settles O27: PROFILE is checked first, then whether the profile named is in force. -/
theorem setProfileChangesTheProfile : Obligations.SetProfileChangesTheProfile := by
  refine ⟨fun s q => formRefusals (fun _ => rfl) (by simp) s, fun s q p he => ?_⟩
  rw [exec_of_executes he rfl (by simp), handlerOf, handleSetProfile_code]
  refine ⟨fun hold standby => ?_, ?_, fun other allowed => ?_⟩
  · rw [if_pos ⟨hold, standby⟩]
    rfl
  · rintro rfl
    have allowed : ¬(s.profile = .hold ∧ s.profile = .standby) := fun ⟨hold, standby⟩ => by simp [hold] at standby
    rw [if_neg allowed, setProfile_same]
    rfl
  · rw [if_neg allowed, setProfile_other other, State.recodeAll_eq_allRecoded]
    rfl

/-! ## The ceiling through HOLD (R78, R80, R84) -/

theorem State.ceilingProfile_iff (s : State) (p : RunProfile) : s.ceilingProfile = some p ↔ CeilingInForce s p := by
  unfold State.ceilingProfile CeilingInForce
  cases s.profile <;> cases p <;> simp [RunProfile.toProfile]

theorem State.ceiling_enterProfile {s : State} {p : Profile} (same : (s.enterProfile p).ceilingProfile = s.ceilingProfile) :
    (s.enterProfile p).ceiling = s.ceiling := by
  rw [State.ceiling, same]
  rfl

/-- HOLD keeps the ceiling of the running profile that it is entered from (R80, R83). -/
theorem State.ceilingProfile_enterHold {s : State} (lit : s.profile ≠ .standby) :
    (s.enterProfile .hold).ceilingProfile = s.ceilingProfile := by
  show some (s.heldFromAfter .hold) = s.ceilingProfile
  unfold State.heldFromAfter State.ceilingProfile
  cases h : s.profile with
  | standby => exact absurd h lit
  | _ => rfl

/-- The profile that `held_from` names has the ceiling that stands in HOLD (R78). -/
theorem State.ceilingProfile_leaveHold {s : State} (hold : s.profile = .hold) :
    (s.enterProfile s.heldFrom.toProfile).ceilingProfile = s.ceilingProfile := by
  have before : s.ceilingProfile = some s.heldFrom := (s.ceilingProfile_iff _).2 (.inr ⟨hold, rfl⟩)
  have after : (s.enterProfile s.heldFrom.toProfile).ceilingProfile = some s.heldFrom :=
    (State.ceilingProfile_iff _ _).2 (.inl rfl)
  rw [before, after]

/-- Codes that are current stand when they are recomputed under the same ceiling. -/
theorem CodesCurrent.recodeAll_enterProfile {s : State} (current : CodesCurrent s) {p : Profile}
    (same : (s.enterProfile p).ceilingProfile = s.ceilingProfile) : (s.enterProfile p).recodeAll.channels = s.channels := by
  rw [State.recodeAll_eq_allRecoded]
  refine Vector.ext fun c hc => ?_
  have code : (s.enterProfile p).codeOf s.channels[c] = s.channels[c].driveCode :=
    (State.codeOf_eq_of_shared (State.ceiling_enterProfile same) rfl).trans (current ⟨c, hc⟩).symm
  simp only [allRecoded, Vector.getElem_ofFn]
  exact congrArg (fun code => { s.channels[c] with driveCode := code }) code

/-- SET_PROFILE under the same ceiling leaves every channel record, whether refused, or naming the profile in force, or neither. -/
theorem CodesCurrent.handleSetProfile_channels {s : State} (current : CodesCurrent s) {p : Profile}
    (same : (s.enterProfile p).ceilingProfile = s.ceilingProfile) : (handleSetProfile [p.code] s).1.channels = s.channels := by
  rw [handleSetProfile_code]
  split
  · rfl
  · unfold setProfile
    split
    · rfl
    · exact current.recodeAll_enterProfile same

/-- Settles O28: entering HOLD, and leaving it for the profile that `held_from` names, keeps the ceiling in force. -/
theorem holdKeepsTheCodes : Obligations.HoldKeepsTheCodes := by
  intro s t q p current he step through
  have same : (s.enterProfile p).ceilingProfile = s.ceilingProfile := by
    rcases through with ⟨rfl, lit⟩ | ⟨hold, rfl⟩
    · exact State.ceilingProfile_enterHold lit
    · exact State.ceilingProfile_leaveHold hold
  rw [exec_of_executes he rfl (by simp)] at step
  cases step
  exact current.handleSetProfile_channels same

/-! ## SET_CEILING (R85) -/

theorem handleSetCeiling_bytes (p : RunProfile) (k : Fin 6) (s : State) :
    handleSetCeiling [p.code, byteOf k.val] s = setCeiling p k s := by
  simp only [handleSetCeiling, runProfile?_code, class?_byteOf]

theorem setCeiling_inForce {p : RunProfile} {s : State} (inForce : CeilingInForce s p) (k : Fin 6) :
    setCeiling p k s = accept (s.writeClass p k).recodeAll [] := if_pos ((s.ceilingProfile_iff p).2 inForce)

theorem setCeiling_aside {p : RunProfile} {s : State} (aside : ¬ CeilingInForce s p) (k : Fin 6) :
    setCeiling p k s = accept (s.writeClass p k) [] := if_neg (mt (s.ceilingProfile_iff p).1 aside)

/-- Settles O29: the class is written in both cases, and the codes recomputed where the ceiling is in force. -/
theorem setCeilingSetsTheClass : Obligations.SetCeilingSetsTheClass := by
  refine ⟨fun s q => formRefusals (fun _ => rfl) (by simp) s, fun s q p k he => ?_⟩
  rw [exec_of_executes he rfl (by simp), handlerOf, handleSetCeiling_bytes]
  refine ⟨fun inForce => ?_, fun aside => ?_⟩
  · rw [setCeiling_inForce inForce, State.recodeAll_eq_allRecoded]
    cases p <;> rfl
  · rw [setCeiling_aside aside]
    cases p <;> rfl

end Sys2Proof.Machine
end

section
/-!
The Retained Store (chapter 6): the places of the array and of the map under a program's outcome, the laws of the store as each
command keeps them, and that a generation once found GOOD or BAD stands.
-/
namespace Sys2Proof.Machine

/-! ## Places of the array and of the map (R96, R97) -/

@[simp] theorem placeState_eq_blank {α : Type} {p : Place α} : placeState p = .blank ↔ p = .blank := by
  cases p <;> simp [placeState]

@[simp] theorem placeState_eq_bad {α : Type} {p : Place α} : placeState p = .bad ↔ p = .bad := by
  cases p <;> simp [placeState]

/-- The states found of four places of which one is written. -/
theorem ofFn_placeState_set {α : Type} (v : Vector (Place α) 4) (g : GenIdx) (x : Place α) :
    (Vector.ofFn fun g' : GenIdx => placeState (v.set g x)[g']) = (Vector.ofFn fun g' : GenIdx => placeState v[g']).set g (placeState x) := by
  ext i hi
  simp only [Vector.getElem_ofFn, Vector.getElem_set, Fin.getElem_fin]
  split <;> rfl

theorem ofFn_placeState_getElem {α : Type} (v : Vector (Place α) 4) (g : GenIdx) :
    (Vector.ofFn fun g' : GenIdx => placeState v[g'])[g] = placeState v[g] := by
  simp

/-- The place of a program's content as its outcome leaves it (R96, R105). -/
def placeAfter {α : Type} (content : α) : ReadBack → Place α
  | .good => .good content
  | .bad => .bad

theorem RetainedArray.put_curves (a : RetainedArray) (g : GenIdx) (v : Vector Curve 7) (t : Nat) (o : ReadBack) :
    a.put ⟨g, .curves v, t⟩ o = { a with curves := a.curves.set g (placeAfter v o) } := by
  cases o <;> rfl

theorem RetainedArray.put_trims (a : RetainedArray) (g : GenIdx) (v : Vector Int 16) (t : Nat) (o : ReadBack) :
    a.put ⟨g, .trims v, t⟩ o = { a with trims := a.trims.set g (placeAfter v o) } := by
  cases o <;> rfl

theorem RetainedArray.put_startup (a : RetainedArray) (g : GenIdx) (x : Scene) (t : Nat) (o : ReadBack) :
    a.put ⟨g, .startup x, t⟩ o = { a with startup := a.startup.set g (placeAfter x o) } := by
  cases o <;> rfl

theorem RetainedArray.put_label (a : RetainedArray) (g : GenIdx) (v : Vector Byte 16) (t : Nat) (o : ReadBack) :
    a.put ⟨g, .label v, t⟩ o = { a with label := a.label.set g (placeAfter v o) } := by
  cases o <;> rfl

theorem placeState_placeAfter {α : Type} (content : α) (o : ReadBack) : placeState (placeAfter content o) = outcomeState o := by
  cases o <;> rfl

/-- What is found after a program's outcome is what was found, with the outcome in the one place (R96, R97, R105). -/
theorem RetainedArray.found_put (a : RetainedArray) (p : Program) (o : ReadBack) :
    (a.put p o).found = a.found.setPlace p.snapshot.kind p.generation (outcomeState o) := by
  obtain ⟨g, x, _⟩ := p
  cases x with
  | curves v => rw [RetainedArray.put_curves, RetainedArray.found, ofFn_placeState_set, placeState_placeAfter]; rfl
  | trims v => rw [RetainedArray.put_trims, RetainedArray.found, ofFn_placeState_set, placeState_placeAfter]; rfl
  | startup x => rw [RetainedArray.put_startup, RetainedArray.found, ofFn_placeState_set, placeState_placeAfter]; rfl
  | label v => rw [RetainedArray.put_label, RetainedArray.found, ofFn_placeState_set, placeState_placeAfter]; rfl

theorem GenMap.ofKind_setPlace_self (m : GenMap) (k : RecordKind) (g : GenIdx) (x : GenState) :
    (m.setPlace k g x).ofKind k = (m.ofKind k).set g x := by
  cases k <;> rfl

theorem GenMap.ofKind_setPlace_other (m : GenMap) {k k' : RecordKind} (other : k' ≠ k) (g : GenIdx) (x : GenState) :
    (m.setPlace k g x).ofKind k' = m.ofKind k' := by
  cases k <;> cases k' <;> first | rfl | exact absurd rfl other

@[simp] theorem GenMap.setPlace_setPlace (m : GenMap) (k : RecordKind) (g : GenIdx) (x y : GenState) :
    (m.setPlace k g x).setPlace k g y = m.setPlace k g y := by
  cases k <;> simp [GenMap.setPlace]

theorem outcomeState_used (o : ReadBack) : (outcomeState o).used = true := by cases o <;> rfl

/-! ## The used generations of a kind (R97) -/

/-- The lowest BLANK generation follows the used ones. -/
theorem UsedPrefix.lowestBlank {m : Vector GenState 4} {u : Nat} (h : UsedPrefix m u) {g : GenIdx} (lowest : LowestBlank m g) :
    g.val = u := by
  obtain ⟨blank, below⟩ := lowest
  have notUsed : ¬ g.val < u := fun before => by simpa [blank, GenState.used] using (h g).1 before
  have notBeyond : ¬ u < g.val := fun beyond =>
    below ⟨u, by omega⟩ beyond ((h ⟨u, by omega⟩).2 (Nat.le_refl u))
  omega

/-- The lowest BLANK generation, once used, is the last of the used ones. -/
theorem UsedPrefix.set {m : Vector GenState 4} {u : Nat} (h : UsedPrefix m u) {g : GenIdx} (next : g.val = u) {x : GenState}
    (used : x.used = true) : UsedPrefix (m.set g x) (u + 1) := by
  intro g'
  rcases eq_or_ne g g' with rfl | other
  · exact ⟨fun _ => by simpa using used, fun beyond => by omega⟩
  · have stands : (m.set g x)[g'] = m[g'] := by simp [Fin.val_ne_of_ne other]
    have apart : g'.val ≠ u := fun e => Fin.val_ne_of_ne other (next.trans e.symm)
    rw [stands]
    exact ⟨fun before => (h g').1 (by omega), fun beyond => (h g').2 (by omega)⟩

/-- The state with the profile and the classes of a scene in force, before the codes are recomputed (R130). -/
def State.enterScene (s : State) (x : Scene) : State :=
  { s with profile := x.profile.toProfile, activeClass := x.activeClass, economyClass := x.economyClass }

theorem State.applyScene_eq (s : State) (x : Scene) : s.applyScene x = ((s.bindScene x).enterScene x).recodeAll := rfl

/-! ## Commands that leave the store (R96, R97, R100) -/

/-- What the laws of the store read is the same, but for a frame that may have entered transmission. -/
structure SameStore (s t : State) : Prop where
  array : t.array = s.array
  map : t.map = s.map
  inFlight : t.inFlight = s.inFlight
  phase : t.phase = s.phase
  restarting : t.restarting = s.restarting
  sending : s.sending ≠ none → t.sending ≠ none

namespace SameStore

variable {s t u : State}

theorem trans (h : SameStore s t) (k : SameStore t u) : SameStore s u :=
  ⟨k.array.trans h.array, k.map.trans h.map, k.inFlight.trans h.inFlight, k.phase.trans h.phase, k.restarting.trans h.restarting,
    fun sends => k.sending (h.sending sends)⟩

theorem of_cueWork (h : CueWork s t) : SameStore s t :=
  ⟨h.array, h.map, h.inFlight, h.phase, h.restarting, fun sends => h.sending ▸ sends⟩

theorem isHeld (h : SameStore s t) : t.isHeld = s.isHeld := by rw [State.isHeld, h.phase]; rfl

theorem writeClass (s : State) (p : RunProfile) (k : Fin 6) : SameStore s (s.writeClass p k) := by
  cases p <;> exact ⟨rfl, rfl, rfl, rfl, rfl, id⟩

theorem setCurve (s : State) (k : SlotNo) (c : Curve) : SameStore s (s.setCurve k c) := ⟨rfl, rfl, rfl, rfl, rfl, id⟩

theorem setCurves (s : State) (v : Vector Curve 7) : SameStore s (s.setCurves v) := ⟨rfl, rfl, rfl, rfl, rfl, id⟩

theorem enterProfile (s : State) (p : Profile) : SameStore s (s.enterProfile p) := ⟨rfl, rfl, rfl, rfl, rfl, id⟩

theorem offer (s : State) (f : Frame) : SameStore s (s.toHunt.offer f) := by
  refine ⟨by simp, by simp, by simp, by simp, by simp, fun sends => ?_⟩
  unfold State.offer
  split
  · exact Option.some_ne_none _
  · exact sends
  · exact sends

theorem takeEdge (s : State) : SameStore s s.takeEdge := by
  obtain ⟨u, o, steps, e⟩ := CueSteps.takeEdge s
  have worked := of_cueWork steps.cueWork_of
  rw [e]
  exact ⟨worked.array, worked.map, worked.inFlight, worked.phase, worked.restarting, worked.sending⟩

/-- The outcome of a program in flight touches the store in `settleProgram` and `clearProgram` alone (R105, R106). -/
theorem afterProgram (s : State) (p : Program) (o : ReadBack) : SameStore s (s.afterProgram p o) := by
  unfold State.afterProgram
  split
  · split
    · exact of_cueWork (.applyTrims s _)
    · exact of_cueWork (.refl s)
  · exact of_cueWork (.refl s)

theorem enterScene (s : State) (x : Scene) : SameStore s (s.enterScene x) := ⟨rfl, rfl, rfl, rfl, rfl, id⟩

theorem applyScene (s : State) (x : Scene) : SameStore s (s.applyScene x) := by
  have bound : SameStore s (s.bindScene x) := of_cueWork (.mapChannels s _)
  rw [State.applyScene_eq]
  exact (bound.trans (enterScene _ x)).trans (of_cueWork (.recodeAll _))

theorem applyLoaded (s : State) : SameStore s s.applyLoaded := by
  unfold State.applyLoaded
  split
  · exact applyScene s _
  · exact of_cueWork (.refl s)

theorem playLoaded (s : State) : SameStore s s.playLoaded := by
  unfold State.playLoaded
  split
  · exact of_cueWork (.launch s _)
  · exact of_cueWork (.refl s)

/-- Load completion touches the store by reading the map and by its phase alone (R129, R133). -/
theorem load (s : State) : ∃ u, SameStore s.readArray u ∧ s.load = u.becomeReady := by
  have taken : SameStore s.readArray s.readArray.takeLoaded := ⟨rfl, rfl, rfl, rfl, rfl, id⟩
  have loaded : SameStore s.readArray s.loadArray :=
    (taken.trans (of_cueWork (.writeTrims _ _))).trans (of_cueWork (.recodeAll _))
  exact ⟨_, ((loaded.trans (applyLoaded _)).trans (of_cueWork (.report _ _))).trans (playLoaded _), rfl⟩

end SameStore

/-- Of the requests, RESTART and STORE_PROGRAM alone touch the store. -/
theorem RequestEffect.store {s t : State} (k : RequestEffect s t) :
    SameStore s t ∨ (s.inFlight = none ∧ t = { s with restarting := true }) ∨
      ∃ kind g fade p, s.inFlight = none ∧ s.map.lowestBlank kind = some g ∧ t = s.beginProgram kind g fade p := by
  cases k with
  | restart free => exact .inr (.inl ⟨free, rfl⟩)
  | storeProgram kind g fade p _ free lowest => exact .inr (.inr ⟨kind, g, fade, p, free, lowest, rfl⟩)
  | setProfile p => exact .inl ((SameStore.enterProfile s p).trans (.of_cueWork (.recodeAll _)))
  | setCeilingInForce p k => exact .inl ((SameStore.writeClass s p k).trans (.of_cueWork (.recodeAll _)))
  | setCeilingAside p k => exact .inl (.writeClass s p k)
  | curveWrite k c => exact .inl ((SameStore.setCurve s k c).trans (.of_cueWork (.recode _ _)))
  | bind mask k => exact .inl (.of_cueWork (.mapSelected s mask _))
  | trimSet mask trim => exact .inl (.of_cueWork (.trimSet s mask trim))
  | trimSource mask x => exact .inl (.of_cueWork (.trimSource s mask x))
  | setLevel mask level => exact .inl (.of_cueWork (.setLevel s mask level))
  | cueGo c r => exact .inl (.of_cueWork (.startCue s c .request r))
  | cueStop i => exact .inl (.of_cueWork (.stopInstance s i))
  | cueStopAll => exact .inl (.of_cueWork (.stopAll s))
  | loadCurves => exact .inl ((SameStore.setCurves s _).trans (.of_cueWork (.recode _ _)))
  | loadTrims => exact .inl (.of_cueWork (.applyTrims s _))
  | replay x => exact .inl (.of_cueWork (.launch s _))
  | _ => exact .inl ⟨rfl, rfl, rfl, rfl, rfl, id⟩

/-! ## What a command can do to the array (R96) -/

theorem RequestEffect.array {s t : State} (k : RequestEffect s t) : t.array = s.array := by
  rcases k.store with same | ⟨-, rfl⟩ | ⟨kind, g, fade, p, -, -, rfl⟩
  · exact same.array
  · rfl
  · rfl

/-- The part of a program's completion that reports it and applies its trims leaves the store as it was settled (R105). -/
theorem State.endProgram_eq (s : State) (p : Program) (o : ReadBack) :
    ∃ u, SameStore (s.settleProgram p o) u ∧ s.endProgram p o = u.clearProgram :=
  ⟨_, (SameStore.of_cueWork (.report _ _)).trans (.afterProgram _ p o), rfl⟩

theorem State.endProgram_array (s : State) (p : Program) (o : ReadBack) : (s.endProgram p o).array = s.array.put p o := by
  obtain ⟨u, same, e⟩ := s.endProgram_eq p o
  rw [e]
  exact same.array

/-- A cut is the outcome BAD, in the array alone (R107). -/
theorem State.cutProgram_some {s : State} {p : Program} (inFlight : s.inFlight = some p) :
    s.cutProgram = { s with array := s.array.put p .bad } := by
  rw [State.cutProgram, inFlight]
  rfl

theorem State.cutProgram_none {s : State} (free : s.inFlight = none) : s.cutProgram = s := by
  rw [State.cutProgram, free]

/-- A command leaves the array, or puts into it an outcome of the program in flight: BAD where the part is held (R105, R107). -/
theorem Change.array {s t : State} (k : Change s t) :
    t.array = s.array ∨
      ∃ p o, s.inFlight = some p ∧ (s.isHeld = true → o = .bad) ∧ t.array = s.array.put p o := by
  cases k with
  | answers f => exact .inl (SameStore.offer s f).array
  | executes k q p => exact .inl (handlerOf_effect k p s).array
  | expiry => exact .inl (CueWork.expiry s).array
  | takeEdge => exact .inl (SameStore.takeEdge s).array
  | endProgram p o unheld inFlight =>
    exact .inr ⟨p, o, inFlight, fun held => absurd held (by simp [unheld]), s.endProgram_array p o⟩
  | load =>
    obtain ⟨u, same, e⟩ := SameStore.load s
    rw [e]
    exact .inl same.array
  | resetCondition c =>
    cases inFlight : s.inFlight with
    | none => exact .inl (by rw [State.cutProgram_none inFlight])
    | some p => exact .inr ⟨p, .bad, rfl, fun _ => rfl, by rw [State.cutProgram_some inFlight]⟩
  | timeout => exact .inl (by simp)
  | endSending x => exact .inl (by unfold State.endSending; split <;> rfl)
  | _ => exact .inl rfl

/-! ## The laws of the store -/

namespace StoreSound

variable {s t : State}

theorem congr (h : StoreSound s) (same : SameStore s t) : StoreSound t where
  arrayPrefix := same.array ▸ h.arrayPrefix
  ready := by
    rw [same.phase, same.inFlight, same.map, same.array]
    exact h.ready
  start := by
    rw [same.phase, same.inFlight, same.map]
    exact h.start
  held := by
    rw [same.isHeld, same.inFlight, same.array]
    exact h.held
  restart := by
    rw [same.restarting, same.inFlight]
    exact fun accepted => ⟨(h.restart accepted).1, same.sending (h.restart accepted).2⟩

/-- A program in flight writes the lowest BLANK generation of its kind; while the part is held it has been cut (R100, R107). -/
theorem inFlight_place (h : StoreSound s) {p : Program} (inFlight : s.inFlight = some p) :
    (s.phase = .ready ∧ s.map = s.array.found.setPlace p.snapshot.kind p.generation .writing ∧
        LowestBlank (s.array.found.ofKind p.snapshot.kind) p.generation) ∨
      (s.isHeld = true ∧ (s.array.found.ofKind p.snapshot.kind)[p.generation] = .bad) := by
  cases phase : s.phase with
  | held cause =>
    have held : s.isHeld = true := by rw [State.isHeld, phase]
    exact .inr ⟨held, h.held held p inFlight⟩
  | start =>
    rw [(h.start phase).1] at inFlight
    cases inFlight
  | ready =>
    have shown := h.ready phase
    rw [inFlight] at shown
    exact .inl ⟨rfl, shown.1, (GenMap.lowestBlank_iff _ _ _).1 shown.2⟩

/-- An outcome of the program in flight leaves the used generations of each kind without a gap (R97). -/
theorem prefix_put (h : StoreSound s) {p : Program} {o : ReadBack} (inFlight : s.inFlight = some p)
    (cut : s.isHeld = true → o = .bad) (k : RecordKind) : ∃ u, u ≤ 4 ∧ UsedPrefix ((s.array.put p o).found.ofKind k) u := by
  obtain ⟨u, bound, used⟩ := h.arrayPrefix k
  rw [RetainedArray.found_put]
  rcases eq_or_ne k p.snapshot.kind with rfl | other
  · rw [GenMap.ofKind_setPlace_self]
    rcases h.inFlight_place inFlight with ⟨-, -, lowest⟩ | ⟨held, bad⟩
    · have next : p.generation.val = u := used.lowestBlank lowest
      exact ⟨u + 1, next ▸ p.generation.isLt, used.set next (outcomeState_used o)⟩
    · have stands : (s.array.found.ofKind p.snapshot.kind).set p.generation (outcomeState o) = s.array.found.ofKind p.snapshot.kind := by
        rw [cut held, outcomeState, ← bad]
        exact Vector.set_getElem_self _
      rw [stands]
      exact ⟨u, bound, used⟩
  · rw [GenMap.ofKind_setPlace_other _ other]
    exact ⟨u, bound, used⟩

/-- Every command leaves the used generations of each kind without a gap (R97). -/
theorem prefix_change (h : StoreSound s) (k : Change s t) (kind : RecordKind) :
    ∃ u, u ≤ 4 ∧ UsedPrefix (t.array.found.ofKind kind) u := by
  rcases k.array with same | ⟨p, o, inFlight, cut, put⟩
  · rw [same]
    exact h.arrayPrefix kind
  · rw [put]
    exact h.prefix_put inFlight cut kind

/-- STORE_PROGRAM is accepted in READY with no program in flight, for the lowest BLANK generation of the map, which is the array's
(R101, R102). -/
theorem beginProgram (h : StoreSound s) (ready : s.phase = .ready) (free : s.inFlight = none) {kind : RecordKind} {g : GenIdx}
    (lowest : s.map.lowestBlank kind = some g) (fade : Nat) (p : RunProfile) :
    (s.beginProgram kind g fade p).map = s.array.found.setPlace kind g .writing ∧ s.array.found.lowestBlank kind = some g := by
  have shown := h.ready ready
  rw [free] at shown
  rw [← shown]
  exact ⟨rfl, lowest⟩

/-- A request is executed in READY with no frame in transmission: no RESTART has been accepted before it (R125, R161). -/
theorem executes (h : StoreSound s) (ready : s.phase = .ready) (idle : s.sending = none) (k : RequestEffect s t)
    (kind : RequestKind) (q : Byte) (p : List Byte) (r : Reply) : StoreSound (answered t kind q p r) := by
  have unaccepted : s.restarting ≠ true := fun accepted => (h.restart accepted).2 idle
  rcases k.store with same | ⟨free, rfl⟩ | ⟨kind', g, fade, profile, free, lowest, rfl⟩
  · have kept := h.congr same
    exact { kept with restart := fun accepted => absurd (same.restarting ▸ accepted) unaccepted }
  · exact { h with restart := fun _ => ⟨free, Option.some_ne_none _⟩ }
  · have kindOf : (s.snapshot kind' fade profile).kind = kind' := by cases kind' <;> rfl
    have begun := h.beginProgram ready free lowest fade profile
    refine ⟨h.arrayPrefix, fun _ => ?_, fun start => absurd (ready.symm.trans start) (by simp), fun held => ?_,
      fun accepted => absurd accepted unaccepted⟩
    · show (s.beginProgram kind' g fade profile).map = s.array.found.setPlace (s.snapshot kind' fade profile).kind g .writing ∧
        s.array.found.lowestBlank (s.snapshot kind' fade profile).kind = some g
      rw [kindOf]
      exact begun
    · have unheld : s.isHeld = false := by rw [State.isHeld, ready]
      exact absurd (unheld.symm.trans held) (by simp)

/-- The outcome replaces WRITING in the map as it replaces BLANK in the array (R97, R105). -/
theorem endProgram (h : StoreSound s) {p : Program} (inFlight : s.inFlight = some p) (unheld : s.isHeld = false) (o : ReadBack) :
    StoreSound (s.endProgram p o) := by
  have used := h.prefix_put (o := o) inFlight fun held => absurd held (by simp [unheld])
  obtain ⟨ready, shown, -⟩ := (h.inFlight_place inFlight).resolve_right fun held => absurd held.1 (by simp [unheld])
  obtain ⟨u, same, e⟩ := s.endProgram_eq p o
  have phase : (s.endProgram p o).phase = .ready := (s.endProgram_phase p o).trans ready
  have map : (s.endProgram p o).map = (s.array.put p o).found := by
    rw [RetainedArray.found_put, e]
    refine same.map.trans ?_
    rw [State.settleProgram, shown, GenMap.setPlace_setPlace]
  have cleared : (s.endProgram p o).inFlight = none := by rw [e]; rfl
  have restarting : (s.endProgram p o).restarting ≠ true := by
    intro accepted
    rw [e] at accepted
    rw [(h.restart (same.restarting.symm.trans accepted)).1] at inFlight
    cases inFlight
  refine ⟨?_, fun _ => ?_, fun start => absurd (phase.symm.trans start) (by simp), fun _ q hq => ?_,
    fun accepted => absurd accepted restarting⟩
  · rw [s.endProgram_array p o]
    exact used
  · rw [cleared, s.endProgram_array p o]
    exact map
  · rw [cleared] at hq
    cases hq

/-- Load completion finds no program in flight, and reads the map from the array (R120, R129). -/
theorem load (h : StoreSound s) (start : s.phase = .start) : StoreSound s.load := by
  obtain ⟨u, same, e⟩ := SameStore.load s
  have free : u.inFlight = none := same.inFlight.trans (h.start start).1
  rw [e]
  refine ⟨?_, fun _ => ?_, fun start' => ?_, fun held => ?_, fun accepted => ?_⟩
  · show ∀ kind, ∃ n, n ≤ 4 ∧ UsedPrefix (u.array.found.ofKind kind) n
    rw [same.array]
    exact h.arrayPrefix
  · show match u.inFlight with | none => u.map = u.array.found | some p => _
    rw [free, same.map, same.array]
    rfl
  · cases start'
  · cases held
  · exact ⟨free, same.sending (h.restart (same.restarting.symm.trans accepted)).2⟩

/-- A reset condition cuts the program in flight: its place is BAD at once (R107, log 10). -/
theorem resetCondition (h : StoreSound s) (c : HoldCause) :
    StoreSound { s.cutProgram with phase := .held (heldCause s c), sending := none, restarting := false } where
  arrayPrefix := h.prefix_change (.resetCondition c)
  ready := fun ready => by cases ready
  start := fun start => by cases start
  held := fun _ p hp => by
    cases inFlight : s.inFlight with
    | none =>
      rw [State.cutProgram_none inFlight] at hp
      rw [inFlight] at hp
      cases hp
    | some q =>
      rw [State.cutProgram_some inFlight] at hp ⊢
      obtain rfl : q = p := Option.some.inj (inFlight.symm.trans hp)
      simp only [RetainedArray.found_put, GenMap.ofKind_setPlace_self]
      exact Vector.getElem_set_self _
  restart := fun accepted => by cases accepted

/-- The reset base keeps the array; the map is BLANK and no program is in flight (R120, R126). -/
theorem base (h : StoreSound s) (cause : ResetCause) (rate : BitRate) : StoreSound (s.base cause rate) where
  arrayPrefix := h.arrayPrefix
  ready := fun ready => by cases ready
  start := fun _ => ⟨rfl, rfl⟩
  held := fun held => by cases held
  restart := fun accepted => by cases accepted

/-- The end of a RESTART's reply finds no program in flight; after any other frame the part goes on (R125, R160). -/
theorem endSending (h : StoreSound s) (x : Sending) : StoreSound (s.endSending x) := by
  unfold State.endSending
  split
  · rename_i accepted
    have cleared : (s.advanceTo (x.startedAt + sendTime s.bitRate x.frame)).beginRestart.inFlight = none := (h.restart accepted).1
    refine ⟨h.arrayPrefix, fun ready => (by cases ready), fun start => (by cases start), fun _ p hp => ?_,
      fun again => (by cases again)⟩
    rw [cleared] at hp
    cases hp
  · rename_i unaccepted
    exact ⟨h.arrayPrefix, h.ready, h.start, h.held, fun accepted => absurd accepted unaccepted⟩

/-- No command breaks the laws of the store. -/
theorem change (h : StoreSound s) (k : Change s t) : StoreSound t := by
  cases k with
  | answers f => exact h.congr (.offer s f)
  | executes k q p ready _ idle => exact h.executes ready idle (handlerOf_effect k p s) k q p _
  | expiry =>
    have ticked : SameStore s s.tick := ⟨rfl, rfl, rfl, rfl, rfl, id⟩
    exact h.congr (ticked.trans (.of_cueWork (.expiry s)))
  | takeEdge => exact h.congr (.takeEdge s)
  | endProgram p o unheld inFlight => exact h.endProgram inFlight unheld o
  | load start => exact h.load start
  | resetCondition c => exact h.resetCondition c
  | base cause rate => exact h.base cause rate
  | timeout =>
    have advanced : SameStore s (s.advanceTo s.timeoutAt) := ⟨rfl, rfl, rfl, rfl, rfl, id⟩
    exact h.congr (advanced.trans (.offer _ _))
  | endSending x => exact h.endSending x
  | _ => exact h.congr ⟨rfl, rfl, rfl, rfl, rfl, id⟩

end StoreSound

/-- Settles O50: the accepted program, its outcome, its cut, load completion and the reset base keep the laws; no other command
writes what they read. -/
theorem storeSoundIsKept : Obligations.StoreSoundIsKept := fun _ _ _ sound k => sound.change (exec_change k)

/-! ## Found states are permanent (R96) -/

/-- A generation found GOOD or BAD stands, with its content. -/
def RetainedArray.KeptIn (a b : RetainedArray) : Prop :=
  ∀ g : GenIdx, (a.curves[g] ≠ .blank → b.curves[g] = a.curves[g]) ∧ (a.trims[g] ≠ .blank → b.trims[g] = a.trims[g]) ∧
    (a.startup[g] ≠ .blank → b.startup[g] = a.startup[g]) ∧ (a.label[g] ≠ .blank → b.label[g] = a.label[g])

/-- A place written over BLANK, or as it was, keeps every place that is not BLANK. -/
theorem place_set_kept {α : Type} {v : Vector (Place α) 4} {g : GenIdx} {x : Place α} (h : v[g] = .blank ∨ v[g] = x) (g' : GenIdx)
    (found : v[g'] ≠ .blank) : (v.set g x)[g'] = v[g'] := by
  rcases eq_or_ne g g' with rfl | other
  · simpa using (h.resolve_left found).symm
  · simp [Fin.val_ne_of_ne other]

/-- An outcome written over BLANK, or BAD over BAD, keeps every generation found GOOD or BAD (R96, R107). -/
theorem RetainedArray.keptIn_put {a : RetainedArray} {p : Program} {o : ReadBack}
    (h : (a.found.ofKind p.snapshot.kind)[p.generation] = .blank ∨
      (a.found.ofKind p.snapshot.kind)[p.generation] = .bad ∧ o = .bad) : a.KeptIn (a.put p o) := by
  obtain ⟨g, x, _⟩ := p
  have written {α : Type} {v : Vector (Place α) 4} (content : α)
      (h : (Vector.ofFn fun g' : GenIdx => placeState v[g'])[g] = .blank ∨
        (Vector.ofFn fun g' : GenIdx => placeState v[g'])[g] = .bad ∧ o = .bad) :
      v[g] = .blank ∨ v[g] = placeAfter content o := by
    simp only [ofFn_placeState_getElem, placeState_eq_blank, placeState_eq_bad] at h
    rcases h with blank | ⟨bad, rfl⟩
    · exact .inl blank
    · exact .inr bad
  intro g'
  cases x with
  | curves v =>
    rw [RetainedArray.put_curves]
    exact ⟨place_set_kept (written v h) g', fun _ => rfl, fun _ => rfl, fun _ => rfl⟩
  | trims v =>
    rw [RetainedArray.put_trims]
    exact ⟨fun _ => rfl, place_set_kept (written v h) g', fun _ => rfl, fun _ => rfl⟩
  | startup v =>
    rw [RetainedArray.put_startup]
    exact ⟨fun _ => rfl, fun _ => rfl, place_set_kept (written v h) g', fun _ => rfl⟩
  | label v =>
    rw [RetainedArray.put_label]
    exact ⟨fun _ => rfl, fun _ => rfl, fun _ => rfl, place_set_kept (written v h) g'⟩

/-- Settles O51: the array is written by a program's outcome alone, in the lowest BLANK place, or BAD where it is BAD already. -/
theorem foundStateIsPermanent : Obligations.FoundStateIsPermanent := by
  intro c s t g sound k
  rcases (exec_change k).array with same | ⟨p, o, inFlight, cut, put⟩
  · rw [same]
    simp
  · rw [put]
    refine RetainedArray.keptIn_put ?_ g
    rcases sound.inFlight_place inFlight with ⟨-, -, lowest⟩ | ⟨held, bad⟩
    · exact .inl lowest.1
    · exact .inr ⟨bad, cut held⟩

end Sys2Proof.Machine
end

section
/-!
The requests on the Retained Store (chapter 6, 10.6): STORE_PROGRAM, the completion of a program, STORE_LOAD of each kind.
-/
namespace Sys2Proof.Machine

/-! ## The form of STORE_PROGRAM (R101, R185) -/

theorem recordKind?_eq_startup : ∀ b : Byte, recordKind? b = some .startup ↔ b = 0x03 := by decide

theorem generation?_none {b : Byte} (h : b = 0 ∨ 4 < b.toNat) : generation? b = none := by
  refine dif_neg fun inRange => ?_
  rcases h with rfl | h
  · simp at inRange
  · omega

/-- The first byte selects the length: 5 for STARTUP and 2 for every other value. -/
theorem handleStoreProgram_badLength {p : List Byte} (length : p.length ≠ if p.head? = some 0x03 then 5 else 2) (s : State) :
    handleStoreProgram p s = refuse s .badLength := by
  unfold handleStoreProgram
  split
  · rename_i b g
    have startup : b = 0x03 := by
      by_contra other
      exact length (if_neg fun first => other (Option.some.inj first)).symm
    rw [startup]
    rfl
  · rename_i b g f1 f0 pr
    have other : b ≠ 0x03 := by
      rintro rfl
      simp at length
    split
    · rename_i startup
      exact absurd ((recordKind?_eq_startup b).1 startup) other
    · rfl
  · rfl

/-- A kind or a generation outside its range, in the length of every kind but STARTUP. -/
theorem handleStoreProgram_range {b g : Byte} (other : b ≠ 0x03) (range : b = 0 ∨ 4 < b.toNat ∨ g = 0 ∨ 4 < g.toNat) (s : State) :
    handleStoreProgram [b, g] s = refuse s .range := by
  have notStartup : recordKind? b ≠ some .startup := mt (recordKind?_eq_startup b).1 other
  simp only [handleStoreProgram]
  rcases or_assoc.2 range with kind | generation
  · rw [recordKind?_none kind]
  · rw [generation?_none generation]
    split <;> [contradiction; contradiction; rfl]

/-- A generation, a fade time or a profile outside its range, for STARTUP. -/
theorem handleStoreProgram_startupRange {g f1 f0 pr : Byte} (range : g = 0 ∨ 4 < g.toNat ∨ 60000 < word16 f1 f0 ∨ 1 < pr.toNat)
    (s : State) : handleStoreProgram [0x03, g, f1, f0, pr] s = refuse s .range := by
  have startup : recordKind? 0x03 = some .startup := rfl
  simp only [handleStoreProgram, startup]
  rcases or_assoc.2 range with generation | fade | profile
  · rw [generation?_none generation]
  · rw [time?_none fade]
    split <;> [contradiction; rfl]
  · rw [runProfile?_none profile]
    split <;> [contradiction; rfl]

/-- The payload of a STORE_PROGRAM (R185, R190). -/
def programPayload (k : RecordKind) (g : GenIdx) (fade : Nat) (p : RunProfile) : List Byte :=
  match k with
  | .startup => [0x03, byteOf (g.val + 1)] ++ bytes16 fade ++ [p.code]
  | _ => [k.code, byteOf (g.val + 1)]

/-- Fade time and profile enter the snapshot of STARTUP alone (R103). -/
theorem handleStoreProgram_bytes (k : RecordKind) (g : GenIdx) {fade : Nat} (inRange : fade ≤ 60000) (p : RunProfile) (s : State) :
    handleStoreProgram (programPayload k g fade p) s = storeProgram k g fade p s := by
  cases k with
  | startup =>
    have startup : recordKind? 0x03 = some .startup := rfl
    simp only [programPayload, bytes16, List.cons_append, List.nil_append, handleStoreProgram, startup, generation?_byteOf,
      time?_bytes fade inRange, runProfile?_code]
  | _ =>
    simp only [programPayload, handleStoreProgram, recordKind?_code, generation?_byteOf]
    rfl

/-! ## STORE_PROGRAM of fields in range (R101, R102) -/

theorem GenState.used_iff (x : GenState) : x.used = true ↔ x = .good ∨ x = .bad := by cases x <;> simp [GenState.used]

section Program

variable {s : State} {k : RecordKind} {g : GenIdx}

theorem storeProgram_busy (busy : s.inFlight ≠ none) (fade : Nat) (p : RunProfile) : storeProgram k g fade p s = refuse s .busy :=
  if_pos (Option.isSome_iff_ne_none.2 busy)

theorem storeProgram_exhausted (free : s.inFlight = none) (used : ∀ g' : GenIdx, (s.map.ofKind k)[g'] = .good ∨ (s.map.ofKind k)[g'] = .bad)
    (fade : Nat) (p : RunProfile) : storeProgram k g fade p s = refuse s .exhausted := by
  have four : s.map.usedCount k = 4 := (GenMap.usedCount_eq_four _ _).2 fun g' => (GenState.used_iff _).2 (used g')
  rw [storeProgram, free, four]
  rfl

theorem storeProgram_stale (free : s.inFlight = none)
    (unused : ∃ g' : GenIdx, (s.map.ofKind k)[g'] ≠ .good ∧ (s.map.ofKind k)[g'] ≠ .bad) (other : ¬ LowestBlank (s.map.ofKind k) g)
    (fade : Nat) (p : RunProfile) : storeProgram k g fade p s = refuse s .stale := by
  have notFour : s.map.usedCount k ≠ 4 := by
    intro four
    obtain ⟨g', notGood, notBad⟩ := unused
    exact ((GenState.used_iff _).1 ((GenMap.usedCount_eq_four _ _).1 four g')).elim notGood notBad
  have unexpected : s.map.lowestBlank k ≠ some g := mt (GenMap.lowestBlank_iff _ _ _).1 other
  rw [storeProgram, free, if_neg notFour, if_pos unexpected]
  rfl

theorem storeProgram_accepted (free : s.inFlight = none) (lowest : LowestBlank (s.map.ofKind k) g) (fade : Nat) (p : RunProfile) :
    storeProgram k g fade p s = (s.beginProgram k g fade p, ⟨.accepted, [byteOf (g.val + 1)]⟩) := by
  have notFour : s.map.usedCount k ≠ 4 := by
    intro four
    have used := (GenMap.usedCount_eq_four _ _).1 four g
    rw [lowest.1] at used
    cases used
  have expected : ¬ s.map.lowestBlank k ≠ some g := not_not.2 ((GenMap.lowestBlank_iff _ _ _).2 lowest)
  rw [storeProgram, free, if_neg notFour, if_neg expected]
  rfl

theorem State.beginProgram_eq (s : State) (k : RecordKind) (g : GenIdx) (fade : Nat) (p : RunProfile) :
    s.beginProgram k g fade p = { s with
      map := mapWith s.map g .writing k
      inFlight := some { generation := g, snapshot := s.snapshot k fade p, acceptedAt := s.clock } } := by
  rw [State.beginProgram, GenMap.setPlace_eq]

end Program

/-- STORE_PROGRAM of fields in range, for every kind: its refusals in their order, and its acceptance (R101, R102, R103). -/
theorem exec_storeProgram {s : State} {q : Byte} (k : RecordKind) (g : GenIdx) {fade : Nat} (inRange : fade ≤ 60000) (p : RunProfile)
    (he : Executes s .storeProgram q (programPayload k g fade p)) :
    let answers (t : State) (r : Reply) : Prop :=
      exec (.storeProgram q (programPayload k g fade p)) s = .next (answered t .storeProgram q (programPayload k g fade p) r)
    (s.inFlight ≠ none → answers s ⟨.busy, []⟩) ∧
    (s.inFlight = none → (∀ g' : GenIdx, (s.map.ofKind k)[g'] = .good ∨ (s.map.ofKind k)[g'] = .bad) → answers s ⟨.exhausted, []⟩) ∧
    (s.inFlight = none → (∃ g' : GenIdx, (s.map.ofKind k)[g'] ≠ .good ∧ (s.map.ofKind k)[g'] ≠ .bad) →
      ¬ LowestBlank (s.map.ofKind k) g → answers s ⟨.stale, []⟩) ∧
    (s.inFlight = none → LowestBlank (s.map.ofKind k) g →
      answers
        { s with
          map := mapWith s.map g .writing k
          inFlight := some { generation := g, snapshot := s.snapshot k fade p, acceptedAt := s.clock } }
        ⟨.accepted, [byteOf (g.val + 1)]⟩) := by
  dsimp only
  rw [exec_of_executes he rfl (by simp), handlerOf, handleStoreProgram_bytes k g inRange]
  refine ⟨fun busy => ?_, fun free used => ?_, fun free unused other => ?_, fun free lowest => ?_⟩
  · rw [storeProgram_busy busy]
    rfl
  · rw [storeProgram_exhausted free used]
    rfl
  · rw [storeProgram_stale free unused other]
    rfl
  · rw [storeProgram_accepted free lowest, State.beginProgram_eq]

/-- Settles O46: the form first, then the checks of R101 in their order, and the snapshot of the kind as it stands. -/
theorem storeProgramTakesASnapshot : Obligations.StoreProgramTakesASnapshot := by
  intro s q
  refine ⟨fun p he length => ?_, fun b g he other range => ?_, fun g f1 f0 pr he range => ?_, fun k g fade pr inRange => ?_⟩
  · rw [exec_of_executes he rfl (by simp), handlerOf, handleStoreProgram_badLength length]
    rfl
  · rw [exec_of_executes he rfl (by simp), handlerOf, handleStoreProgram_range other range]
    rfl
  · rw [exec_of_executes he rfl (by simp), handlerOf, handleStoreProgram_startupRange range]
    rfl
  · cases k with
    | curves => exact exec_storeProgram (s := s) (q := q) .curves g inRange pr
    | trims => exact exec_storeProgram (s := s) (q := q) .trims g inRange pr
    | startup => exact exec_storeProgram (s := s) (q := q) .startup g inRange pr
    | label => exact exec_storeProgram (s := s) (q := q) .label g inRange pr

/-! ## The completion of a program (R105, R106) -/

theorem exec_programCompletion_none {s : State} (unheld : s.isHeld = false) (free : s.inFlight = none) (o : ReadBack) :
    exec (.programCompletion o) s = .next s := by
  simp only [exec, execProgramCompletion, unheld, free]
  rfl

theorem exec_programCompletion_some {s : State} {p : Program} (unheld : s.isHeld = false) (inFlight : s.inFlight = some p)
    (o : ReadBack) : exec (.programCompletion o) s = .next (s.endProgram p o) := by
  simp only [exec, execProgramCompletion, unheld, inFlight]
  rfl

/-- The settled outcome, with the places of array and map spelled (R96, R97). -/
theorem State.settleProgram_eq (s : State) (p : Program) (o : ReadBack) : s.settleProgram p o = { s with
    clock := max s.clock (p.acceptedAt + 48000)
    array := arrayWith s.array p.generation p.snapshot o
    map := mapWith s.map p.generation (outcomeState o) p.snapshot.kind } := by
  rw [State.settleProgram, RetainedArray.put_eq, GenMap.setPlace_eq]
  rfl

/-- The stored trims written into the channels of `s`, with the codes of those whose source is STORED, channel by channel (R106,
R112). -/
theorem State.applyTrims_like {s u : State} (channels : u.channels = s.channels) (code : u.codeOf = s.codeOf) (v : Vector Int 16) :
    u.applyTrims v = { u with
      channels := Vector.ofFn fun c =>
        let ch := { s.channels[c] with storedTrim := v[c] }
        if ch.source = .stored then { ch with driveCode := s.codeOf ch } else ch } := by
  have written : (u.writeTrims v).codeOf = s.codeOf := (State.codeOf_writeTrims u v).trans code
  rw [State.applyTrims, State.recode, State.mapChannels]
  simp only [State.writeTrims_channels, State.recoded, written, channels, decide_eq_true_eq]
  rfl

theorem State.applyTrims_channels (s : State) (v : Vector Int 16) : s.applyTrims v = { s with
    channels := Vector.ofFn fun c =>
      let ch := { s.channels[c] with storedTrim := v[c] }
      if ch.source = .stored then { ch with driveCode := s.codeOf ch } else ch } := State.applyTrims_like rfl rfl v

theorem State.afterProgram_other {s : State} {p : Program} {o : ReadBack} (other : o = .bad ∨ p.snapshot.kind ≠ .trims) :
    s.afterProgram p o = s := by
  unfold State.afterProgram
  split
  · split
    · rename_i v trims
      rw [trims] at other
      simp [Content.kind] at other
    · rfl
  · rfl

theorem State.afterProgram_trims {s : State} {p : Program} {v : Vector Int 16} (trims : p.snapshot = .trims v) :
    s.afterProgram p .good = s.applyTrims v := by
  rw [State.afterProgram, trims]

/-- Settles O47: the outcome is settled and reported, and the trims of a GOOD TRIMS program are applied. -/
theorem programCompletionSettles : Obligations.ProgramCompletionSettles := by
  intro s o unheld
  refine ⟨fun free => exec_programCompletion_none unheld free o, fun p inFlight => ?_⟩
  rw [exec_programCompletion_some unheld inFlight]
  refine ⟨fun other => ?_, fun v good trims => ?_⟩
  · have kept : s.endProgram p o = ((s.settleProgram p o).report (.programDone p.snapshot.kind p.generation o)).clearProgram := by
      rw [State.endProgram, State.afterProgram_other other]
    rw [kept, State.settleProgram_eq]
    rfl
  · subst good
    have applied : s.endProgram p .good =
        (((s.settleProgram p .good).report (.programDone p.snapshot.kind p.generation .good)).applyTrims v).clearProgram := by
      rw [State.endProgram, State.afterProgram_trims trims]
    rw [applied, State.settleProgram_eq, State.applyTrims_like (s := s)]
    · rfl
    · exact State.report_channels _ _
    · exact (CueWork.report _ _).codeOf

/-! ## What a load gives (R109) -/

/-- The newest GOOD generation of the map gives its content, where the array holds it. -/
theorem GenMap.newestGood_content {α : Type} {m : GenMap} {k : RecordKind} {g : GenIdx} {places : Vector (Place α) 4} {x : α}
    (newest : NewestGood (m.ofKind k) g) (good : places[g] = .good x) :
    ((m.newestGood k).bind fun g => placeContent places[g]) = some x := by
  rw [(GenMap.newestGood_iff m k g).2 newest, Option.bind_some, good]
  rfl

theorem GenMap.noGood_content {α : Type} {m : GenMap} {k : RecordKind} (none : ∀ g : GenIdx, (m.ofKind k)[g] ≠ .good)
    (places : Vector (Place α) 4) : ((m.newestGood k).bind fun g => placeContent places[g]) = .none := by
  rw [(GenMap.newestGood_eq_none m k).2 none, Option.bind_none]

theorem acceptLoad_newest {m : GenMap} {k : RecordKind} {g : GenIdx} (newest : NewestGood (m.ofKind k) g) (t : State) :
    acceptLoad t (m.newestGood k) = (t, ⟨.ok, [byteOf (g.val + 1)]⟩) := by
  rw [(GenMap.newestGood_iff m k g).2 newest]
  rfl

theorem acceptLoad_default {m : GenMap} {k : RecordKind} (none : ∀ g : GenIdx, (m.ofKind k)[g] ≠ .good) (t : State) :
    acceptLoad t (m.newestGood k) = (t, ⟨.ok, [0]⟩) := by
  rw [(GenMap.newestGood_eq_none m k).2 none]
  rfl

/-! ## STORE_LOAD of CURVES, TRIMS and LABEL (R111, R112, R113) -/

section Load

variable {s : State}

/-- Slots 1 to 7 replaced, with the codes of the channels bound to them, channel by channel (R111). -/
theorem State.applyCurves_channels (s : State) (v : Vector Curve 7) : s.applyCurves v = { s.setCurves v with
    channels := Vector.ofFn fun c =>
      if s.channels[c].slot ≠ 0 then { s.channels[c] with driveCode := (s.setCurves v).codeOf s.channels[c] } else s.channels[c] } := by
  simp only [State.applyCurves_eq, State.recode, State.mapChannels, decide_eq_true_eq]
  rfl

theorem storeLoadCurves_busy (busy : s.inFlight ≠ none) : storeLoadCurves s = refuse s .busy :=
  if_pos (Option.isSome_iff_ne_none.2 busy)

theorem storeLoadCurves_inUse (free : s.inFlight = none)
    (owned : ∃ c : ChannelNo, s.channels[c].owned = true ∧ s.channels[c].slot ≠ 0) : storeLoadCurves s = refuse s .inUse := by
  have inUse : s.ownedOn (fun k => decide (k ≠ 0)) = true := (s.ownedOn_iff _).2 (by simpa using owned)
  rw [storeLoadCurves, free, if_pos inUse]
  rfl

theorem storeLoadCurves_accepts (free : s.inFlight = none)
    (unowned : ∀ c : ChannelNo, s.channels[c].owned = true → s.channels[c].slot = 0) :
    storeLoadCurves s = acceptLoad (s.applyCurves s.loadedCurves) (s.map.newestGood .curves) := by
  have unused : ¬ s.ownedOn (fun k => decide (k ≠ 0)) = true := by
    intro inUse
    obtain ⟨c, owned, slot⟩ := (s.ownedOn_iff _).1 inUse
    exact of_decide_eq_true slot (unowned c owned)
  rw [storeLoadCurves, free, if_neg unused]
  rfl

theorem storeLoadTrims_busy (busy : s.inFlight ≠ none) : storeLoadTrims s = refuse s .busy :=
  if_pos (Option.isSome_iff_ne_none.2 busy)

theorem storeLoadTrims_accepts (free : s.inFlight = none) :
    storeLoadTrims s = acceptLoad (s.applyTrims s.loadedTrims) (s.map.newestGood .trims) := by
  rw [storeLoadTrims, free]
  rfl

theorem storeLoadLabel_busy (busy : s.inFlight ≠ none) : storeLoadLabel s = refuse s .busy :=
  if_pos (Option.isSome_iff_ne_none.2 busy)

theorem storeLoadLabel_accepts (free : s.inFlight = none) :
    storeLoadLabel s = acceptLoad { s with label := s.loadedLabel } (s.map.newestGood .label) := by
  rw [storeLoadLabel, free]
  rfl

end Load

/-- Settles O48: each kind's checks in their order, then the content that the newest GOOD generation or the defaults give. -/
theorem storeLoadReloads : Obligations.StoreLoadReloads := by
  intro s q
  refine ⟨fun he => ?_, fun he => ?_, fun he => ?_⟩
  · dsimp only
    rw [exec_executes (i := .storeLoadCurves q) rfl rfl he, show handlerOf .storeLoad [0x01] s = storeLoadCurves s from rfl]
    refine ⟨fun busy => ?_, fun free owned => ?_, fun free unowned => ⟨fun g x (newest : NewestGood (s.map.ofKind .curves) g) good => ?_, fun (none : ∀ g : GenIdx, (s.map.ofKind .curves)[g] ≠ .good) => ?_⟩⟩
    · rw [storeLoadCurves_busy busy]
      rfl
    · rw [storeLoadCurves_inUse free owned]
      rfl
    · have content : s.loadedCurves = x := by rw [State.loadedCurves, GenMap.newestGood_content newest good]
      rw [storeLoadCurves_accepts free unowned, acceptLoad_newest newest, content, State.applyCurves_channels]
      rfl
    · have content : s.loadedCurves = Vector.replicate 7 linearCurve := by rw [State.loadedCurves, GenMap.noGood_content none]
      rw [storeLoadCurves_accepts free unowned, acceptLoad_default none, content, State.applyCurves_channels]
      rfl
  · dsimp only
    rw [exec_executes (i := .storeLoadTrims q) rfl rfl he, show handlerOf .storeLoad [0x02] s = storeLoadTrims s from rfl]
    refine ⟨fun busy => ?_, fun free => ⟨fun g x (newest : NewestGood (s.map.ofKind .trims) g) good => ?_, fun (none : ∀ g : GenIdx, (s.map.ofKind .trims)[g] ≠ .good) => ?_⟩⟩
    · rw [storeLoadTrims_busy busy]
      rfl
    · have content : s.loadedTrims = x := by rw [State.loadedTrims, GenMap.newestGood_content newest good]
      rw [storeLoadTrims_accepts free, acceptLoad_newest newest, content, State.applyTrims_channels]
    · have content : s.loadedTrims = Vector.replicate 16 0 := by rw [State.loadedTrims, GenMap.noGood_content none]
      rw [storeLoadTrims_accepts free, acceptLoad_default none, content, State.applyTrims_channels]
      simp
  · dsimp only
    rw [exec_executes (i := .storeLoadLabel q) rfl rfl he, show handlerOf .storeLoad [0x04] s = storeLoadLabel s from rfl]
    refine ⟨fun busy => ?_, fun free => ⟨fun g x (newest : NewestGood (s.map.ofKind .label) g) good => ?_, fun (none : ∀ g : GenIdx, (s.map.ofKind .label)[g] ≠ .good) => ?_⟩⟩
    · rw [storeLoadLabel_busy busy]
      rfl
    · have content : s.loadedLabel = x := by rw [State.loadedLabel, GenMap.newestGood_content newest good]
      rw [storeLoadLabel_accepts free, acceptLoad_newest newest, content]
    · have content : s.loadedLabel = spaces := by rw [State.loadedLabel, GenMap.noGood_content none]
      rw [storeLoadLabel_accepts free, acceptLoad_default none, content]
      rfl

/-! ## The replay (R114, R115) -/

section Replay

variable {s : State}

theorem storeLoadStartup_profile (paused : s.profile.running = false) : storeLoadStartup s = refuse s .profile := by
  rw [storeLoadStartup, paused]
  rfl

theorem storeLoadStartup_busy (running : s.profile.running = true) (busy : s.inFlight ≠ none) :
    storeLoadStartup s = refuse s .busy := by
  rw [storeLoadStartup, running, if_pos (Option.isSome_iff_ne_none.2 busy)]
  rfl

theorem storeLoadStartup_empty (running : s.profile.running = true) (free : s.inFlight = none) (empty : s.loadedScene = none) :
    storeLoadStartup s = refuse s .empty := by
  rw [storeLoadStartup, running, free, empty]
  rfl

theorem storeLoadStartup_loaded {x : Scene} (running : s.profile.running = true) (free : s.inFlight = none)
    (loaded : s.loadedScene = some x) : storeLoadStartup s =
      if idHeld s.active 0 then refuse s .inUse
      else if 4 ≤ s.active.length then refuse s .full
      else acceptLoad (s.startScene x) (s.map.newestGood .startup) := by
  rw [storeLoadStartup, running, free, loaded]
  rfl

/-- Every entry of the start-up instance starts with it (R41). -/
theorem atOnce_sceneInstance (x : Scene) : (sceneInstance x).atOnce = sceneEntries x := by
  rw [Instance.atOnce, entries_sceneInstance, List.filter_eq_self]
  intro e he
  obtain ⟨c, -, rfl⟩ := List.mem_map.1 he
  rfl

/-- The start-up instance joins the tail unannounced, its entries start in channel order, and the sweep runs (R41, R115). -/
theorem State.startScene_eq (s : State) (x : Scene) :
    s.startScene x = ((s.join (sceneInstance x)).startEntries 0 (sceneEntries x)).sweep := by
  rw [← atOnce_sceneInstance x]
  rfl

end Replay

/-- Settles O49: the checks of R114 in their order, then the launch of the start-up instance. -/
theorem replayStartsTheScene : Obligations.ReplayStartsTheScene := by
  intro s q he
  dsimp only
  rw [exec_executes (i := .storeLoadStartup q) rfl rfl he, show handlerOf .storeLoad [0x03] s = storeLoadStartup s from rfl]
  refine ⟨fun paused => ?_, fun running busy => ?_, fun running free (none : ∀ g : GenIdx, (s.map.ofKind .startup)[g] ≠ .good) => ?_,
    fun g x running free (newest : NewestGood (s.map.ofKind .startup) g) good => ?_⟩
  · rw [storeLoadStartup_profile paused]
    rfl
  · rw [storeLoadStartup_busy running busy]
    rfl
  · rw [storeLoadStartup_empty running free (GenMap.noGood_content none _)]
    rfl
  · have loaded : s.loadedScene = some x := GenMap.newestGood_content newest good
    rw [storeLoadStartup_loaded running free loaded]
    refine ⟨fun held => ?_, fun unheld full => ?_, fun unheld room => ?_⟩
    · rw [if_pos (idHeld_iff.2 held)]
      rfl
    · rw [if_neg (mt idHeld_iff.1 (by simpa using unheld)), if_pos full]
      rfl
    · rw [if_neg (mt idHeld_iff.1 (by simpa using unheld)), if_neg (Nat.not_le_of_lt room), acceptLoad_newest newest,
        State.startScene_eq]
      dsimp only
      rfl

end Sys2Proof.Machine
end

section
/-!
The requests on the part (10.2), STORE_STATUS and LABEL_SET (10.6), and the reset condition (R123).
-/
namespace Sys2Proof.Machine

/-! ## HELLO, STATUS, RESTART (R169, R170, R172) -/

theorem State.reportCount_eq (s : State) : s.reportCount = s.reports.length + if s.overflow = none then 0 else 1 := by
  unfold State.reportCount
  cases s.overflow <;> rfl

theorem handleRestart_busy {s : State} (busy : s.inFlight ≠ none) : handleRestart [] s = refuse s .busy :=
  if_pos (Option.isSome_iff_ne_none.2 busy)

theorem handleRestart_accepts {s : State} (free : s.inFlight = none) :
    handleRestart [] s = accept { s with restarting := true } [] := by
  rw [handleRestart, free]
  rfl

/-! ## STORE_STATUS and LABEL_SET (R116, R99) -/

theorem GenMap.kindBytes_eq (m : GenMap) (k : RecordKind) :
    m.kindBytes k = [(m.ofKind k)[0].code, (m.ofKind k)[1].code, (m.ofKind k)[2].code, (m.ofKind k)[3].code] := by
  rw [GenMap.kindBytes]
  conv_lhs => rw [vector4_eq (m.ofKind k)]
  rfl

theorem State.storeBytes_eq (s : State) : s.storeBytes =
    s.map.kindBytes .curves ++ s.map.kindBytes .trims ++ s.map.kindBytes .startup ++ s.map.kindBytes .label ++
      [byteOf (s.map.usedCount .curves), byteOf (s.map.usedCount .trims), byteOf (s.map.usedCount .startup),
        byteOf (s.map.usedCount .label)] ++ s.programBytes := by
  simp [State.storeBytes, recordKinds]

theorem handleLabelSet_bytes (v : Vector Byte 16) (s : State) :
    handleLabelSet v.toList s = accept { s with label := v } [] := by
  rw [handleLabelSet, dif_pos v.length_toList]
  rfl

/-- Settles O52. -/
theorem partRequests : Obligations.PartRequests := by
  intro s q
  refine ⟨fun he => ?_, fun he => ?_, fun he => ?_, fun v he => ?_, fun he => ⟨fun busy => ?_, fun free => ?_⟩⟩
  · rw [exec_of_executes he rfl (by simp)]
    rfl
  · dsimp only
    rw [exec_of_executes he rfl (by simp), ← State.reportCount_eq]
    rfl
  · dsimp only
    rw [exec_of_executes he rfl (by simp), handlerOf, handleStoreStatus, State.storeBytes_eq]
    simp only [GenMap.kindBytes_eq]
    rfl
  · rw [exec_of_executes he rfl (by simp), handlerOf, handleLabelSet_bytes]
    rfl
  · rw [exec_of_executes he rfl (by simp), handlerOf, handleRestart_busy busy]
    rfl
  · rw [exec_of_executes he rfl (by simp), handlerOf, handleRestart_accepts free]
    rfl

/-! ## The reset condition (R107, R122, R123) -/

/-- While the part is held no byte, expiry, edge or program completion does anything (R123). -/
theorem exec_held {s : State} (held : s.isHeld = true) :
    (∀ b, exec (.byteReceived b) s = .next s) ∧ exec .fadeClockExpiry s = .next s ∧ exec .goFallingEdge s = .next s ∧
      ∀ o, exec (.programCompletion o) s = .next s := by
  have notReady : s.phase ≠ .ready := fun ready => by rw [State.isHeld, ready] at held; cases held
  refine ⟨fun b => ?_, ?_, exec_goFallingEdge_untaken fun taken => notReady (s.edgeTaken_iff.1 taken).1, fun o => ?_⟩
  · simp [exec, execByteReceived, State.deaf, held]
  · simp [exec, execFadeClockExpiry, held]
  · simp [exec, execProgramCompletion, held]

theorem heldCause_eq (s : State) (c : HoldCause) : heldCause s c = match c with
    | .power => .power
    | .pin => if s.phase = .held .power then .power else .pin := by
  unfold heldCause
  cases c <;> rcases s.phase with (_ | _ | _) | _ | _ <;> rfl

/-- The part as a reset condition leaves it: the program in flight cut, the frame in transmission cut off, no RESTART to follow (R107,
R122, R123). -/
def State.heldBy (s : State) (c : HoldCause) : State :=
  { s.cutProgram with phase := .held (heldCause s c), sending := none, restarting := false }

theorem State.cutProgram_frame (s : State) : s.cutProgram = { s with array := s.cutProgram.array } := by
  unfold State.cutProgram
  split <;> rfl

theorem State.cutProgram_array (s : State) : s.cutProgram.array = match s.inFlight with
    | none => s.array
    | some p => arrayWith s.array p.generation p.snapshot .bad := by
  cases inFlight : s.inFlight with
  | none => rw [State.cutProgram_none inFlight]
  | some p =>
    rw [State.cutProgram_some inFlight]
    exact s.array.put_eq p .bad

theorem State.heldBy_eq (s : State) (c : HoldCause) : s.heldBy c = { s with
    array := match s.inFlight with
      | none => s.array
      | some p => arrayWith s.array p.generation p.snapshot .bad
    phase := .held (match c with
      | .power => .power
      | .pin => if s.phase = .held .power then .power else .pin)
    sending := none
    restarting := false } := by
  rw [State.heldBy, State.cutProgram_frame, State.cutProgram_array, heldCause_eq]

theorem State.conditionHolds_heldBy (s : State) (c : HoldCause) : (s.heldBy c).conditionHolds = true := by
  have phase : (s.heldBy c).phase = .held (heldCause s c) := rfl
  rw [State.conditionHolds_iff, phase, heldCause_eq]
  cases c with
  | power => exact .inl rfl
  | pin =>
    dsimp only
    split
    · exact .inl rfl
    · exact .inr rfl

/-- Settles O53. -/
theorem resetConditionHoldsThePart : Obligations.ResetConditionHoldsThePart := by
  intro s c cause held
  have same : s.heldBy c = held := s.heldBy_eq c
  rw [← same]
  have condition := s.conditionHolds_heldBy c
  refine ⟨rfl, fun ch => ?_, ?_, exec_held rfl⟩
  · exact if_pos (.inr (.inr condition))
  · rw [State.attnLow, condition]
    rfl

end Sys2Proof.Machine
end

section
/-!
Load completion (R129 to R133): what each kind loads, the channels of the START phase, and the start-up instance as its sixteen
entries start.
-/
namespace Sys2Proof.Machine

/-! ## What each kind loads (R109, R131) -/

theorem placeState_eq_good {α : Type} {p : Place α} (h : placeState p = .good) : ∃ x, p = .good x := by
  cases p with
  | good x => exact ⟨x, rfl⟩
  | blank => cases h
  | bad => cases h

/-- The newest GOOD generation's content, or none, and the note of the START report are what the kind loads. -/
theorem loads_newestGood {α : Type} {m : GenMap} {k : RecordKind} {places : Vector (Place α) 4}
    (shown : ∀ g : GenIdx, (m.ofKind k)[g] = placeState places[g]) :
    Loads places ((m.newestGood k).bind fun g => placeContent places[g]) (m.note k) where
  content := by
    cases newest : m.newestGood k with
    | none =>
      refine .inr ⟨rfl, by rw [GenMap.note, newest]; rfl, fun g z good => ?_⟩
      exact (GenMap.newestGood_eq_none m k).1 newest g (by rw [shown, good]; rfl)
    | some g =>
      obtain ⟨found, above⟩ := (GenMap.newestGood_iff m k g).1 newest
      obtain ⟨x, good⟩ := placeState_eq_good ((shown g).symm.trans found)
      refine .inl ⟨g, x, by rw [Option.bind_some, good]; rfl, good, by rw [GenMap.note, newest]; rfl, fun g' newer z good' => ?_⟩
      exact above g' newer (by rw [shown, good']; rfl)
  flag := by
    simp only [GenMap.note, GenMap.fallback, shown, placeState_eq_bad, List.any_eq_true, Bool.and_eq_true, decide_eq_true_eq,
      List.mem_finRange, true_and, genNumber]
    exact exists_congr fun g => and_congr_right fun _ => decide_eq_true_iff

namespace RetainedArray

variable (a : RetainedArray)

/-- What the array loads for CURVES, none standing for the defaults (R109). -/
def newestCurves : Option (Vector Curve 7) := (a.found.newestGood .curves).bind fun g => placeContent a.curves[g]

/-- What the array loads for TRIMS. -/
def newestTrims : Option (Vector Int 16) := (a.found.newestGood .trims).bind fun g => placeContent a.trims[g]

/-- What the array loads for STARTUP. -/
def newestScene : Option Scene := (a.found.newestGood .startup).bind fun g => placeContent a.startup[g]

/-- What the array loads for LABEL. -/
def newestLabel : Option (Vector Byte 16) := (a.found.newestGood .label).bind fun g => placeContent a.label[g]

theorem loads_newestCurves : Loads a.curves a.newestCurves (a.found.note .curves) :=
  loads_newestGood fun g => ofFn_placeState_getElem a.curves g

theorem loads_newestTrims : Loads a.trims a.newestTrims (a.found.note .trims) :=
  loads_newestGood fun g => ofFn_placeState_getElem a.trims g

theorem loads_newestScene : Loads a.startup a.newestScene (a.found.note .startup) :=
  loads_newestGood fun g => ofFn_placeState_getElem a.startup g

theorem loads_newestLabel : Loads a.label a.newestLabel (a.found.note .label) :=
  loads_newestGood fun g => ofFn_placeState_getElem a.label g

end RetainedArray

theorem State.loadedCurves_eq (s : State) : s.loadedCurves =
    ((s.map.newestGood .curves).bind fun g => placeContent s.array.curves[g]).getD (Vector.replicate 7 linearCurve) := by
  unfold State.loadedCurves
  split
  · rename_i found
    rw [found]
    rfl
  · rename_i empty
    rw [empty]
    rfl

theorem State.loadedLabel_eq (s : State) : s.loadedLabel =
    ((s.map.newestGood .label).bind fun g => placeContent s.array.label[g]).getD spaces := by
  unfold State.loadedLabel
  split
  · rename_i found
    rw [found]
    rfl
  · rename_i empty
    rw [empty]
    rfl

theorem State.loadedTrims_eq (s : State) (c : ChannelNo) : s.loadedTrims[c] =
    match (s.map.newestGood .trims).bind fun g => placeContent s.array.trims[g] with
    | none => 0
    | some t => t[c] := by
  unfold State.loadedTrims
  split
  · rename_i found
    rw [found]
  · rename_i empty
    rw [empty]
    exact Vector.getElem_replicate _

/-! ## Channels in the START phase (R19, R128) -/

theorem State.mapChannels_mapChannels (s : State) (f g : ChannelNo → Channel → Channel) :
    (s.mapChannels f).mapChannels g = s.mapChannels fun c ch => g c (f c ch) := by
  simp only [State.mapChannels, Fin.getElem_fin, Vector.getElem_ofFn, Fin.eta]

/-- Where every level is 0 every recomputed code is 0 (R7). -/
theorem State.recodeAll_dark {s : State} (dark : ∀ c : ChannelNo, s.channels[c].level = 0) :
    s.recodeAll = s.mapChannels fun _ ch => { ch with driveCode := 0 } := by
  have code (c : ChannelNo) : s.codeOf s.channels[c] = 0 := s.codeOf_dark (.inl (dark c))
  simp only [State.recodeAll_eq_recode, State.recode, State.mapChannels, State.recoded, code, if_true]

/-! ## The array read (R129, R130) -/

/-- The state with what the array loads in slots 1 to 7 and the label, and with the map and the identity read (R129). -/
def State.filled (s : State) : State := { s with
  map := { curves := foundIn s.array.curves, trims := foundIn s.array.trims, startup := foundIn s.array.startup,
           label := foundIn s.array.label }
  serial := s.ident.getD 0
  curves := s.array.newestCurves.getD (Vector.replicate 7 linearCurve)
  label := s.array.newestLabel.getD spaces }

theorem State.filled_map (s : State) : s.filled.map = s.array.found := (RetainedArray.found_eq s.array).symm

theorem State.takeLoaded_readArray (s : State) : s.readArray.takeLoaded = s.filled := by
  rw [State.takeLoaded, State.loadedCurves_eq, State.loadedLabel_eq, State.filled, ← RetainedArray.found_eq]
  rfl

/-- The stored trim that a channel loads: the defaults are 0 (R109). -/
def RetainedArray.trimAt (a : RetainedArray) (c : ChannelNo) : Int :=
  match a.newestTrims with
  | none => 0
  | some t => t[c]

section Start

variable {s : State}

/-- Step 1 of load completion, in the START phase (R129). -/
theorem State.loadArray_dark (dark : ∀ c : ChannelNo, s.channels[c].level = 0) :
    s.loadArray = s.filled.mapChannels fun c ch => { ch with storedTrim := s.array.trimAt c, driveCode := 0 } := by
  have trims (c : ChannelNo) : s.readArray.loadedTrims[c] = s.array.trimAt c := s.readArray.loadedTrims_eq c
  have written : s.filled.writeTrims s.readArray.loadedTrims = s.filled.mapChannels fun c ch =>
      { ch with storedTrim := s.array.trimAt c } := by simp only [State.writeTrims, trims]
  rw [State.loadArray, State.takeLoaded_readArray, written, State.recodeAll_dark, State.mapChannels_mapChannels]
  intro c
  rw [State.mapChannels_channels]
  exact dark c

/-- A scene applied while every level is 0 (R130). -/
theorem State.applyScene_dark (dark : ∀ c : ChannelNo, s.channels[c].level = 0) (x : Scene) :
    s.applyScene x = (s.enterScene x).mapChannels fun c ch =>
      { ch with slot := x.channels[c].slot, source := x.channels[c].source, driveCode := 0 } := by
  have bound : (s.bindScene x).enterScene x = (s.enterScene x).mapChannels fun c ch =>
      { ch with slot := x.channels[c].slot, source := x.channels[c].source } := rfl
  rw [State.applyScene_eq, bound, State.recodeAll_dark, State.mapChannels_mapChannels]
  intro c
  rw [State.mapChannels_channels]
  exact dark c

end Start

/-! ## The start-up instance (R41, R132) -/

namespace Scene

variable (x : Scene)

/-- The entry of the start-up instance for a channel (R41). -/
def entry (c : ChannelNo) : CueEntry := { channel := c, target := x.channels[c].level, fade := x.fade, delay := 0 }

/-- The state that an entry of the scene takes when it starts on a dark FREE channel (R43). -/
def started : EntryState := if x.fade = 0 then .done else .fading 0 0

/-- The start-up instance with the entries for some channels started. -/
def playing (cs : List ChannelNo) : Instance := { sceneInstance x with
  entries := (List.finRange 16).map fun c => { entry := x.entry c, state := if c ∈ cs then x.started else .waiting } }

end Scene

/-- A FREE channel as the start of its entry of the scene leaves it (R43). -/
def State.played (s : State) (x : Scene) (c : ChannelNo) (ch : Channel) : Channel :=
  if x.fade = 0 then s.recoded { ch with level := x.channels[c].level } else { ch with owner := some 0 }

/-- The state in which the scene's entries for some channels have started (R41). -/
def State.playing (s : State) (x : Scene) (cs : List ChannelNo) : State :=
  { s.mapChannels fun c ch => if c ∈ cs then s.played x c ch else ch with active := [x.playing cs] }

theorem State.played_of_codeOf {s t : State} (code : t.codeOf = s.codeOf) (x : Scene) : t.played x = s.played x := by
  funext c ch
  simp only [State.played, State.recoded, code]

section Playing

variable {s : State} {x : Scene}

theorem Scene.playing_nil : x.playing [] = sceneInstance x := by
  simp [Scene.playing, sceneInstance, sceneEntries, waitingCopy, Scene.entry]

theorem State.playing_nil (quiet : s.active = []) : s.playing x [] = s.join (sceneInstance x) := by
  have same : (s.mapChannels fun c ch => if c ∈ ([] : List ChannelNo) then s.played x c ch else ch) = s :=
    State.mapChannels_eq_self fun c => by simp
  rw [State.playing, same, Scene.playing_nil, State.join, quiet]
  rfl

/-- The entry of one more channel takes its state. -/
theorem Scene.playing_cons (c : ChannelNo) (cs : List ChannelNo) : x.playing (c :: cs) = (x.playing cs).setEntry c x.started := by
  simp only [Scene.playing, Instance.setEntry, List.map_map]
  congr 1
  refine List.map_congr_left fun d _ => ?_
  by_cases h : d = c <;> simp [h, Scene.entry]

theorem State.playing_channels (cs : List ChannelNo) (c : ChannelNo) :
    (s.playing x cs).channels[c] = if c ∈ cs then s.played x c s.channels[c] else s.channels[c] := by
  rw [← State.mapChannels_channels s (fun c ch => if c ∈ cs then s.played x c ch else ch), State.playing]

theorem State.codeOf_playing (cs : List ChannelNo) : (s.playing x cs).codeOf = s.codeOf :=
  (State.codeOf_withActive _ _).trans (State.codeOf_mapChannels s _)

theorem State.playing_cons (c : ChannelNo) (cs : List ChannelNo) : s.playing x (c :: cs) = { s.playing x cs with
    channels := (s.playing x cs).channelsWith c (s.played x c s.channels[c])
    active := [(x.playing cs).setEntry c x.started] } := by
  have channels : (s.playing x (c :: cs)).channels = (s.playing x cs).channelsWith c (s.played x c s.channels[c]) := by
    refine Vector.ext fun d hd => ?_
    have before := State.playing_channels (s := s) (x := x) cs ⟨d, hd⟩
    have after := State.playing_channels (s := s) (x := x) (c :: cs) ⟨d, hd⟩
    simp only [Fin.getElem_fin] at before after
    rw [State.channelsWith, Vector.getElem_ofFn, after]
    rcases eq_or_ne ⟨d, hd⟩ c with rfl | other
    · simp
    · simp [other, before]
  rw [← channels, ← Scene.playing_cons]
  simp only [State.playing, State.mapChannels]

/-- An entry of the only instance starts on a FREE channel (R43). -/
theorem State.startEntry_alone {u : State} {i : Instance} (alone : u.active = [i]) {e : CueEntry}
    (free : u.channels[e.channel].owner = none) : u.startEntry i.id e =
      if e.fade = 0 then { u with
        channels := u.channelsWith e.channel (u.recoded { u.channels[e.channel] with level := e.target, owner := none })
        active := [i.setEntry e.channel .done] }
      else { u with
        channels := u.channelsWith e.channel { u.channels[e.channel] with owner := some i.id }
        active := [i.setEntry e.channel (.fading u.channels[e.channel].level 0)] } := by
  have list : u.active = [] ++ i :: [] := alone
  have ids : (u.active.map Instance.id).Nodup := by
    rw [alone]
    exact List.nodup_singleton _
  rw [State.startEntry, if_neg (State.not_heldByNewer list ids (.inl free)), State.takeOver_setEntry list ids,
    State.takeOver_setEntry list ids, State.writeLevel_withActive, State.writeOwner_withActive]
  rfl

/-- One entry of the scene starts on its channel, FREE and dark until then (R43). -/
theorem State.playing_startEntry (free : ∀ c : ChannelNo, s.channels[c].owner = none)
    (dark : ∀ c : ChannelNo, s.channels[c].level = 0) {c : ChannelNo} {cs : List ChannelNo} (fresh : c ∉ cs) :
    (s.playing x cs).startEntry 0 (x.entry c) = s.playing x (c :: cs) := by
  have channel : (s.playing x cs).channels[(x.entry c).channel] = s.channels[c] :=
    (State.playing_channels cs c).trans (if_neg fresh)
  have owner : s.channels[c].owner = none := free c
  rw [State.playing_cons]
  refine (State.startEntry_alone (i := x.playing cs) rfl (by rw [channel, owner])).trans ?_
  rw [channel, dark c]
  by_cases fade : x.fade = 0
  · rw [if_pos (show (x.entry c).fade = 0 from fade), State.played, if_pos fade, Scene.started, if_pos fade, State.recoded,
      State.recoded, State.codeOf_playing, ← owner]
    rfl
  · rw [if_neg (show ¬ (x.entry c).fade = 0 from fade), State.played, if_neg fade, Scene.started, if_neg fade]
    rfl

/-- The entries of the scene start one after another (R41). -/
theorem State.playing_startEntries (free : ∀ c : ChannelNo, s.channels[c].owner = none)
    (dark : ∀ c : ChannelNo, s.channels[c].level = 0) {l : List ChannelNo} (distinct : l.Nodup) (cs : List ChannelNo)
    (fresh : ∀ c ∈ l, c ∉ cs) : (s.playing x cs).startEntries 0 (l.map x.entry) = s.playing x (l.reverse ++ cs) := by
  induction l generalizing cs with
  | nil => rfl
  | cons c l ih =>
    obtain ⟨apart, distinct⟩ := List.nodup_cons.1 distinct
    have unstarted : ∀ d ∈ l, d ∉ c :: cs := fun d hd => by
      rw [List.mem_cons, not_or]
      exact ⟨fun same => apart (same ▸ hd), fresh d (List.mem_cons_of_mem c hd)⟩
    have first := State.playing_startEntry (x := x) free dark (fresh c List.mem_cons_self)
    have rest := ih distinct (c :: cs) unstarted
    calc (s.playing x cs).startEntries 0 ((c :: l).map x.entry)
        = ((s.playing x cs).startEntry 0 (x.entry c)).startEntries 0 (l.map x.entry) := by
          simp only [State.startEntries, List.map_cons, List.foldl_cons]
      _ = s.playing x (l.reverse ++ c :: cs) := by rw [first, rest]
      _ = s.playing x ((c :: l).reverse ++ cs) := by rw [List.reverse_cons, List.append_assoc, List.singleton_append]

/-- The start-up instance with all its entries started. -/
def Scene.begun (x : Scene) : Instance := { sceneInstance x with
  entries := (List.finRange 16).map fun c => { entry := x.entry c, state := x.started } }

/-- The sixteen entries have started, in channel order (R41). -/
theorem State.join_startEntries (quiet : s.active = []) (free : ∀ c : ChannelNo, s.channels[c].owner = none)
    (dark : ∀ c : ChannelNo, s.channels[c].level = 0) :
    (s.join (sceneInstance x)).startEntries 0 (sceneEntries x) = { s.mapChannels (s.played x) with active := [x.begun] } := by
  have all (c : ChannelNo) : c ∈ (List.finRange 16).reverse ++ [] := by simp
  have entries : sceneEntries x = (List.finRange 16).map x.entry := rfl
  rw [← State.playing_nil quiet, entries, State.playing_startEntries free dark (List.nodup_finRange 16) [] (by simp)]
  simp only [State.playing, Scene.playing, all, if_true]
  rfl

/-- The only instance, all its entries DONE and without a follow, leaves by the sweep (R51, R52). -/
theorem State.sweep_alone {u : State} {i : Instance} (alone : u.active = [i]) (done : ∀ e ∈ i.entries, e.state = .done)
    (follow : i.follow = none) : u.sweep = State.report { u with active := [] } (i.doneReport .complete) := by
  have finished : i.finished = true := List.all_eq_true.2 fun e he => by simp [EntryCopy.isLive, done e he]
  have dropped : u.dropFinished = { u with active := [] } := by simp [State.dropFinished, alone, finished]
  have leaving : u.active.filter Instance.finished = [i] := by simp [alone, finished]
  rw [State.sweep, dropped, leaving]
  exact State.complete_noFollow _ done follow

theorem Scene.begun_doneReport (fade : x.fade = 0) : x.begun.doneReport .complete = .cueDone 0 none .complete 16 0 0 0 := by
  have started : x.started = .done := if_pos fade
  simp [Instance.doneReport, Scene.begun, Instance.count, started, List.filter_map, Function.comp_def, sceneInstance]

/-- The start-up instance on FREE channels at level 0: with fade time 0 it is over at once (R132). -/
theorem State.startScene_dark (quiet : s.active = []) (free : ∀ c : ChannelNo, s.channels[c].owner = none)
    (dark : ∀ c : ChannelNo, s.channels[c].level = 0) : s.startScene x =
      if x.fade = 0 then (s.mapChannels (s.played x)).report (.cueDone 0 none .complete 16 0 0 0)
      else { s.mapChannels (s.played x) with active := [x.begun] } := by
  rw [State.startScene_eq, State.join_startEntries quiet free dark]
  by_cases fade : x.fade = 0
  · have done : ∀ e ∈ x.begun.entries, e.state = .done := fun e he => by
      obtain ⟨c, -, rfl⟩ := List.mem_map.1 he
      exact if_pos fade
    rw [State.sweep_alone (i := x.begun) rfl done rfl, Scene.begun_doneReport fade, if_pos fade, ← quiet]
    simp only [State.mapChannels]
  · have fading : x.begun.finished = false := by
      refine Instance.finished_eq_false_of_fading (List.mem_map.2 ⟨0, List.mem_finRange 0, rfl⟩) ?_
      simp [Scene.started, fade, EntryCopy.isFading]
    rw [if_neg fade]
    exact State.sweep_of_live fun i hi => by rw [List.mem_singleton.1 hi, fading]

end Playing

/-! ## The end of the START phase (R131, R132, R133) -/

/-- What the START phase leaves as the reset base had it: no instance, no owner, every level 0, an empty Report Queue (R126, R128). -/
structure State.Unstarted (s : State) : Prop where
  quiet : s.active = []
  free : ∀ c : ChannelNo, s.channels[c].owner = none
  dark : ∀ c : ChannelNo, s.channels[c].level = 0
  reports : s.reports = []
  overflow : s.overflow = none
  number : s.nextReport = 0

theorem EngineSound.unstarted {s : State} (sound : EngineSound s) (start : s.phase = .start) : s.Unstarted where
  quiet := (sound.startQuiet start).1
  free c := Option.isSome_eq_false_iff.1 (sound.free_in_start start c) |> Option.isNone_iff_eq_none.1
  dark := sound.startDark start
  reports := (sound.startQueue start).2.1
  overflow := (sound.startQueue start).2.2.1
  number := (sound.startQueue start).2.2.2

/-- A report appended to a queue with room (R141). -/
theorem State.report_append {s : State} (overflow : s.overflow = none) (room : s.reports.length < 15) (b : ReportBody) :
    s.report b = { s with
      nextReport := s.nextReport + 1
      reports := s.reports ++ [{ number := s.nextReport, time := s.uptime, body := b }] } := by
  rw [State.report, overflow]
  exact if_pos room

theorem State.report_second {s : State} {r : Report} (reports : s.reports = [r]) (overflow : s.overflow = none)
    (number : s.nextReport = 1) (b : ReportBody) : s.report b = { s with
      reports := [r, { number := 1, time := s.uptime, body := b }]
      nextReport := 2 } := by
  rw [State.report_append overflow (by rw [reports]; exact Nat.one_lt_ofNat), reports, number]
  rfl

namespace State.Unstarted

variable {s : State} (h : s.Unstarted)

include h

theorem report_first (b : ReportBody) : s.report b = { s with
    reports := [{ number := 0, time := s.uptime, body := b }]
    nextReport := 1 } := by
  rw [State.report_append h.overflow (by rw [h.reports]; exact Nat.zero_lt_succ _), h.reports, h.number]
  rfl

/-- Updates of the channels that keep owner and level. -/
theorem mapChannels {f : ChannelNo → Channel → Channel} (owner : ∀ c ch, (f c ch).owner = ch.owner)
    (level : ∀ c ch, (f c ch).level = ch.level) : (s.mapChannels f).Unstarted where
  quiet := by rw [State.mapChannels_active, h.quiet]
  free c := by rw [State.mapChannels_channels, owner, h.free]
  dark c := by rw [State.mapChannels_channels, level, h.dark]
  reports := by rw [State.mapChannels_reports, h.reports]
  overflow := by rw [State.mapChannels_overflow, h.overflow]
  number := by rw [State.mapChannels_nextReport, h.number]

theorem enterScene (x : Scene) : (s.enterScene x).Unstarted := ⟨h.quiet, h.free, h.dark, h.reports, h.overflow, h.number⟩

/-- The start-up instance plays after the first report (R131, R132). -/
theorem report_startScene (x : Scene) (b : ReportBody) : (s.report b).startScene x =
    if x.fade = 0 then { s.mapChannels (s.played x) with
      reports := [{ number := 0, time := s.uptime, body := b },
        { number := 1, time := s.uptime, body := .cueDone 0 none .complete 16 0 0 0 }]
      nextReport := 2 }
    else { s.mapChannels (s.played x) with
      reports := [{ number := 0, time := s.uptime, body := b }]
      nextReport := 1
      active := [x.begun] } := by
  have played : (s.report b).played x = s.played x := State.played_of_codeOf (CueWork.report s b).codeOf x
  have channels : (s.report b).channels = s.channels := State.report_channels s b
  rw [State.startScene_dark (by rw [State.report_active, h.quiet]) (by rw [channels]; exact h.free) (by rw [channels]; exact h.dark),
    played, h.report_first]
  simp only [State.mapChannels]
  refine if_congr Iff.rfl (State.report_second ?_ ?_ ?_ _) rfl
  · rfl
  · exact h.overflow
  · rfl

/-- The scene applied, reported and played, from the first report on (R130, R131, R132). -/
theorem playScene (x : Scene) (b : ReportBody) : ((s.applyScene x).report b).startScene x =
    if x.fade = 0 then { s.enterScene x with
      channels := Vector.ofFn fun c => (s.enterScene x).recoded { s.channels[c] with
        slot := x.channels[c].slot
        source := x.channels[c].source
        level := x.channels[c].level }
      reports := [{ number := 0, time := s.uptime, body := b },
        { number := 1, time := s.uptime, body := .cueDone 0 none .complete 16 0 0 0 }]
      nextReport := 2 }
    else { s.enterScene x with
      channels := Vector.ofFn fun c => { s.channels[c] with
        slot := x.channels[c].slot
        source := x.channels[c].source
        driveCode := 0
        owner := some 0 }
      reports := [{ number := 0, time := s.uptime, body := b }]
      nextReport := 1
      active := [x.begun] } := by
  have entered : (s.enterScene x).Unstarted := h.enterScene x
  have applied := entered.mapChannels (f := fun c ch =>
    { ch with slot := x.channels[c].slot, source := x.channels[c].source, driveCode := 0 }) (fun _ _ => rfl) (fun _ _ => rfl)
  rw [State.applyScene_dark h.dark, applied.report_startScene, State.played_of_codeOf (State.codeOf_mapChannels _ _),
    State.mapChannels_mapChannels]
  by_cases fade : x.fade = 0
  · simp only [if_pos fade, State.played, State.mapChannels, State.enterScene]
    rfl
  · simp only [if_neg fade, State.played, State.mapChannels, State.enterScene]

end State.Unstarted

/-! ## Load completion (R129 to R133) -/

section Load

variable {s : State}

theorem exec_loadCompletion_ready (ready : s.phase = .ready) : exec .loadCompletion s = .next s := by
  simp only [exec, execLoadCompletion, ready]
  rfl

theorem exec_loadCompletion_start (start : s.phase = .start) : exec .loadCompletion s = .next s.load := by
  simp only [exec, execLoadCompletion, start]
  rfl

/-- A channel with its loaded trim: at level 0 its code is 0 (R129). -/
def State.trimmed (s : State) (c : ChannelNo) (ch : Channel) : Channel := { ch with storedTrim := s.array.trimAt c, driveCode := 0 }

theorem State.Unstarted.loadArray (h : s.Unstarted) : s.loadArray = s.filled.mapChannels s.trimmed := State.loadArray_dark h.dark

theorem State.Unstarted.filled (h : s.Unstarted) : s.filled.Unstarted := ⟨h.quiet, h.free, h.dark, h.reports, h.overflow, h.number⟩

/-- The array read leaves a state of the START phase (R129). -/
theorem State.Unstarted.read (h : s.Unstarted) : s.loadArray.Unstarted := by
  rw [h.loadArray]
  exact h.filled.mapChannels (fun _ _ => rfl) (fun _ _ => rfl)

theorem State.Unstarted.loadArray_map (h : s.Unstarted) : s.loadArray.map = s.array.found := by
  rw [h.loadArray, State.mapChannels_map, State.filled_map]

theorem State.Unstarted.loadArray_array (h : s.Unstarted) : s.loadArray.array = s.array := by
  simp only [h.loadArray, State.mapChannels_array, State.filled]

/-- The scene that the map and the array of a state give is settled by the two alone. -/
theorem State.loadedScene_of_found {t : State} (map : t.map = s.array.found) (array : t.array = s.array) :
    t.loadedScene = s.array.newestScene := by
  rw [State.loadedScene, map, array]
  rfl

/-- Load completion without a GOOD STARTUP generation (R129, R131). -/
theorem State.Unstarted.load_none (h : s.Unstarted) (empty : s.array.newestScene = none) :
    s.load = (s.loadArray.report s.loadArray.startBody).becomeReady := by
  have unapplied : s.loadArray.applyLoaded = s.loadArray := by
    rw [State.applyLoaded, State.loadedScene_of_found h.loadArray_map h.loadArray_array, empty]
  rw [State.load_eq, unapplied, State.playLoaded, State.loadedScene_of_found (s := s), empty]
  · rw [State.report_map, h.loadArray_map]
  · rw [State.report_array, h.loadArray_array]

/-- Load completion with a GOOD STARTUP generation (R129 to R132). -/
theorem State.Unstarted.load_some (h : s.Unstarted) {x : Scene} (loaded : s.array.newestScene = some x) :
    s.load = (((s.loadArray.applyScene x).report s.loadArray.startBody).startScene x).becomeReady := by
  have applied : s.loadArray.applyLoaded = s.loadArray.applyScene x := by
    rw [State.applyLoaded, State.loadedScene_of_found h.loadArray_map h.loadArray_array, loaded]
  have dark := State.applyScene_dark h.read.dark x
  have sameMap : (s.loadArray.applyScene x).map = s.loadArray.map := by
    simp only [dark, State.mapChannels_map, State.enterScene]
  have sameArray : (s.loadArray.applyScene x).array = s.loadArray.array := by
    simp only [dark, State.mapChannels_array, State.enterScene]
  have sameCause : (s.loadArray.applyScene x).cause = s.loadArray.cause := by
    simp only [dark, State.mapChannels_cause, State.enterScene]
  have body : (s.loadArray.applyScene x).startBody = s.loadArray.startBody := by
    rw [State.startBody, sameMap, sameCause, ← State.startBody]
  rw [State.load_eq, applied, State.playLoaded, State.loadedScene_of_found (s := s), loaded, body]
  · rw [State.report_map, sameMap, h.loadArray_map]
  · rw [State.report_array, sameArray, h.loadArray_array]

theorem State.Unstarted.startBody_loadArray (h : s.Unstarted) : s.loadArray.startBody =
    .start s.cause (s.array.found.note .curves) (s.array.found.note .trims) (s.array.found.note .startup)
      (s.array.found.note .label) := by
  rw [State.startBody, h.loadArray, State.mapChannels_map, State.mapChannels_cause, State.filled_map, State.filled]

/-- The state that the obligation calls loaded: the array read, the START report queued, the part READY (R129, R131, R133). -/
def State.opened (s : State) (b : ReportBody) : State := { s.filled with
  reports := [{ number := 0, time := s.uptime, body := b }]
  nextReport := 1
  phase := .ready }

/-- Channels, reports and phase enter no code (R7, R8). -/
theorem State.recoded_enterScene_mapChannels (u : State) (x : Scene) (f : ChannelNo → Channel → Channel) (reports : List Report)
    (number : Half) (p : Phase) : ((u.mapChannels f).enterScene x).recoded =
      (State.enterScene { u with reports := reports, nextReport := number, phase := p } x).recoded := by
  have shared : SameShared (State.enterScene { u with reports := reports, nextReport := number, phase := p } x)
      ((u.mapChannels f).enterScene x) := by
    simp only [SameShared, State.enterScene, State.mapChannels, and_self]
  funext ch
  rw [State.recoded, State.recoded, shared.codeOf_eq]

theorem State.Unstarted.recoded_loadArray (h : s.Unstarted) (x : Scene) (b : ReportBody) :
    (s.loadArray.enterScene x).recoded = ((s.opened b).enterScene x).recoded := by
  rw [h.loadArray]
  exact State.recoded_enterScene_mapChannels s.filled x s.trimmed _ _ _

theorem State.Unstarted.loadArray_channels (h : s.Unstarted) (c : ChannelNo) :
    s.loadArray.channels[c] = s.trimmed c s.channels[c] := by
  rw [h.loadArray, State.mapChannels_channels]
  rfl

/-- What load completion leaves without a GOOD STARTUP generation. -/
theorem State.Unstarted.load_empty (h : s.Unstarted) (empty : s.array.newestScene = none) :
    s.load = { s.opened s.loadArray.startBody with channels := Vector.ofFn fun c => s.trimmed c s.channels[c] } := by
  rw [h.load_none empty, h.read.report_first, h.loadArray]
  simp only [State.mapChannels, State.opened, State.filled, State.becomeReady]

/-- What load completion leaves with a GOOD STARTUP generation. -/
theorem State.Unstarted.load_scene (h : s.Unstarted) {x : Scene} (loaded : s.array.newestScene = some x) : s.load =
    if x.fade = 0 then { (s.opened s.loadArray.startBody).enterScene x with
      channels := Vector.ofFn fun c => ((s.opened s.loadArray.startBody).enterScene x).recoded { s.trimmed c s.channels[c] with
        slot := x.channels[c].slot
        source := x.channels[c].source
        level := x.channels[c].level }
      reports := [{ number := 0, time := s.uptime, body := s.loadArray.startBody },
        { number := 1, time := s.uptime, body := .cueDone 0 none .complete 16 0 0 0 }]
      nextReport := 2 }
    else { (s.opened s.loadArray.startBody).enterScene x with
      channels := Vector.ofFn fun c => { s.trimmed c s.channels[c] with
        slot := x.channels[c].slot
        source := x.channels[c].source
        driveCode := 0
        owner := some 0 }
      active := [x.begun] } := by
  rw [h.load_some loaded, h.read.playScene, h.recoded_loadArray x s.loadArray.startBody]
  simp only [h.loadArray_channels]
  generalize s.loadArray.startBody = b
  rw [h.loadArray]
  split <;> simp only [State.mapChannels, State.opened, State.filled, State.becomeReady, State.enterScene]

end Load

/-- Settles O55: the array is read, the newest scene is applied and played, and the reports are the first of the queue. -/
theorem loadCompletionEndsStart : Obligations.LoadCompletionEndsStart := by
  intro s
  refine ⟨exec_loadCompletion_ready, fun start sound => ?_⟩
  have fresh : s.Unstarted := sound.unstarted start
  refine ⟨s.array.newestCurves, s.array.newestTrims, s.array.newestScene, s.array.newestLabel, s.array.found.note .curves,
    s.array.found.note .trims, s.array.found.note .startup, s.array.found.note .label, s.array.loads_newestCurves,
    s.array.loads_newestTrims, s.array.loads_newestScene, s.array.loads_newestLabel, ?_⟩
  rw [exec_loadCompletion_start start]
  cases loaded : s.array.newestScene with
  | none =>
    rw [fresh.load_empty loaded, fresh.startBody_loadArray]
    rfl
  | some x =>
    rw [fresh.load_scene loaded, fresh.startBody_loadArray]
    dsimp only
    by_cases fade : x.fade = 0
    · rw [if_pos fade, if_pos fade]
      rfl
    · have fading : x.begun = { sceneInstance x with
          entries := (List.finRange 16).map fun c => { entry := x.entry c, state := .fading 0 0 } } := by
        rw [Scene.begun, Scene.started, if_neg fade]
      rw [if_neg fade, if_neg fade, fading]
      rfl

end Sys2Proof.Machine
end

section
/-!
The Link Port between frames: requests that are not executed (R128, R159, R161), the outbound queue (R160), the break detector (R162),
and the laws of the Link Port under every command (R135, R152, R158, R160, R162).
-/
namespace Sys2Proof.Machine

/-! ## When the part receives (R123, R162) -/

theorem State.deaf_eq_false_iff (s : State) : s.deaf = false ↔ s.isHeld = false ∧ s.breakDetector ≠ .latched := by
  simp [State.deaf]

/-- A part that receives has no break standing. -/
theorem State.unbroken_of_hearing {s : State} (hearing : s.deaf = false) : s.breakDetector ≠ .latched :=
  (s.deaf_eq_false_iff.1 hearing).2

theorem State.unheld_of_start {s : State} (start : s.phase = .start) : s.isHeld = false := by rw [State.isHeld, start]

theorem State.unheld_of_ready {s : State} (ready : s.phase = .ready) : s.isHeld = false := by rw [State.isHeld, ready]

/-- Whether the part is held is a matter of its phase alone. -/
theorem State.isHeld_congr {s t : State} (phase : t.phase = s.phase) : t.isHeld = s.isHeld := by
  rw [State.isHeld, phase]
  rfl

/-! ## Requests that are not executed (R128, R159, R161) -/

/-- The payload of a well-formed request row fits a frame (R150). -/
theorem length_le_of_wellFormed {i : Instr} {k : RequestKind} {q : Byte} {p : List Byte} (hi : requestOf i = some (k, q, p))
    (hw : i.wellFormed = true) : p.length ≤ 240 := by
  cases i with
  | storeLoadCurves | storeLoadTrims | storeLoadLabel | storeLoadStartup =>
    cases hi
    decide
  | storeLoadNoRecordKind =>
    cases hi
    exact Laws.FrameLength.fits (Bool.and_eq_true _ _ ▸ hw).1
  | fadeClockExpiry | goFallingEdge | programCompletion | loadCompletion | resetCondition | resetBase | oeChange | byteReceived
  | framingError | interByteTimeout | transmissionEnd | linkReset | rxdFalls | rxdRises => cases hi
  | _ =>
    cases hi
    exact Laws.FrameLength.fits hw

/-- A part that receives takes a well-formed request. -/
theorem exec_request_of_hearing {i : Instr} {k : RequestKind} {q : Byte} {p : List Byte} {s : State}
    (hi : requestOf i = some (k, q, p)) (hw : i.wellFormed = true) (hearing : s.deaf = false) :
    exec i s = .next (s.takeRequest k (handlerOf k) q p) := by
  have fits : p.length ≤ Config.maxPayload := length_le_of_wellFormed hi hw
  rw [exec_request hi hw, requestStep, if_pos fits, hearing]
  rfl

section Unexecuted

variable {s : State} {k : RequestKind} {run : Handler} {q : Byte} {p : List Byte}

theorem State.takeRequest_start (start : s.phase = .start) :
    s.takeRequest k run q p = huntAndOffer s (rejectFrame q .notReady) := if_pos start

theorem State.takeRequest_ready (ready : s.phase = .ready) : s.takeRequest k run q p = s.toHunt.admission k run q p :=
  if_neg (by simp [ready])

/-- The request that the Last Reply Record keeps is a repeat (R159). -/
theorem State.repeatOf_of_recorded {r : LastReply} {check : Half} (recorded : s.lastReply = some r) (seq : r.seq = q)
    (same : r.check = check) : s.repeatOf q check = some r.reply := by
  rw [State.repeatOf, recorded]
  exact if_pos ⟨seq, same⟩

/-- A request that differs from the recorded one in sequence or check is no repeat (R159). -/
theorem State.repeatOf_of_fresh {check : Half} (fresh : ∀ r : LastReply, s.lastReply = some r → r.seq ≠ q ∨ r.check ≠ check) :
    s.repeatOf q check = none := by
  rw [State.repeatOf]
  split
  · rename_i r recorded
    exact if_neg fun same => (fresh r recorded).elim (absurd same.1) (absurd same.2)
  · rfl

theorem State.takeRequest_repeat {f : Frame} (ready : s.phase = .ready) (stored : s.repeatOf q (requestCheck k q p) = some f) :
    s.takeRequest k run q p = huntAndOffer s f := by
  have found : s.toHunt.repeatOf q (frameCheck q k.code p) = some f := stored
  rw [State.takeRequest_ready ready, State.admission, found]
  rfl

theorem State.takeRequest_overrun (ready : s.phase = .ready) (fresh : s.repeatOf q (requestCheck k q p) = none)
    (busy : s.sending ≠ none) : s.takeRequest k run q p = huntAndOffer s (rejectFrame q .overrun) := by
  have unrecorded : s.toHunt.repeatOf q (frameCheck q k.code p) = none := fresh
  rw [State.takeRequest_ready ready, State.admission, unrecorded]
  exact if_pos (Option.isSome_iff_ne_none.2 busy)

end Unexecuted

/-- Settles O4: the START phase is asked first, then the Last Reply Record, then the frame in transmission. -/
theorem requestNotExecuted : Obligations.RequestNotExecuted := by
  intro i k q p s hi hw unbroken
  have taken (unheld : s.isHeld = false) : exec i s = .next (s.takeRequest k (handlerOf k) q p) :=
    exec_request_of_hearing hi hw (s.deaf_eq_false_iff.2 ⟨unheld, unbroken⟩)
  refine ⟨fun start => ?_, fun ready r recorded seq check => ?_, fun ready fresh busy => ?_⟩
  · rw [taken (State.unheld_of_start start), State.takeRequest_start start]
  · rw [taken (State.unheld_of_ready ready), State.takeRequest_repeat ready (State.repeatOf_of_recorded recorded seq check)]
  · rw [taken (State.unheld_of_ready ready), State.takeRequest_overrun ready (State.repeatOf_of_fresh fresh) busy]

/-! ## The outbound queue (R125, R160) -/

section Outbound

variable {s : State}

theorem State.offer_idle (idle : s.sending = none) (f : Frame) :
    s.offer f = { s with sending := some { frame := f, startedAt := s.clock } } := by
  simp only [State.offer, idle]

theorem State.offer_waits (busy : s.sending ≠ none) (free : s.waiting = none) (f : Frame) :
    s.offer f = { s with waiting := some f } := by
  obtain ⟨x, sends⟩ := Option.ne_none_iff_exists'.1 busy
  simp only [State.offer, sends, free]

theorem State.offer_dropped (busy : s.sending ≠ none) (taken : s.waiting ≠ none) (f : Frame) : s.offer f = s := by
  obtain ⟨x, sends⟩ := Option.ne_none_iff_exists'.1 busy
  obtain ⟨g, waits⟩ := Option.ne_none_iff_exists'.1 taken
  simp only [State.offer, sends, waits]

/-- After an offer a frame is in transmission. -/
theorem State.offer_sending (s : State) (f : Frame) : (s.offer f).sending ≠ none := by
  unfold State.offer
  split
  · exact Option.some_ne_none _
  all_goals
    rename_i sends _
    exact sends ▸ Option.some_ne_none _

theorem exec_transmissionEnd {x : Sending} (unheld : s.isHeld = false) (sends : s.sending = some x) :
    exec .transmissionEnd s = .next (s.endSending x) := by
  simp only [exec, execTransmissionEnd, unheld, sends, Bool.false_eq_true, if_false]

theorem State.endSending_plain (plain : s.restarting = false) (x : Sending) :
    s.endSending x = (s.advanceTo (x.startedAt + sendTime s.bitRate x.frame)).sendWaiting :=
  if_neg (by simp [plain])

theorem State.endSending_restart (restarting : s.restarting = true) (x : Sending) :
    s.endSending x = (s.advanceTo (x.startedAt + sendTime s.bitRate x.frame)).beginRestart :=
  if_pos restarting

theorem State.sendWaiting_none (free : s.waiting = none) : s.sendWaiting = { s with sending := none } := by
  rw [State.sendWaiting, free, Option.map_none, ← free]

theorem State.sendWaiting_some {f : Frame} (waits : s.waiting = some f) :
    s.sendWaiting = { s with sending := some { frame := f, startedAt := s.clock }, waiting := none } := by
  rw [State.sendWaiting, waits, Option.map_some]

end Outbound

/-- Settles O7. -/
theorem outboundQueue : Obligations.OutboundQueue := by
  refine ⟨fun s f => ⟨fun idle => s.offer_idle idle f, fun busy free => s.offer_waits busy free f,
    fun busy taken => s.offer_dropped busy taken f⟩, fun s x unheld sends => ?_⟩
  dsimp only
  rw [exec_transmissionEnd unheld sends]
  refine ⟨fun plain free => ?_, fun f plain waits => ?_, fun restarting => ?_⟩
  · rw [State.endSending_plain plain]
    exact congrArg Host.Outcome.next (State.sendWaiting_none (s := s.advanceTo _) free)
  · rw [State.endSending_plain plain]
    exact congrArg Host.Outcome.next (State.sendWaiting_some (s := s.advanceTo _) waits)
  · rw [State.endSending_restart restarting]
    rfl

/-! ## The break detector (R135, R162) -/

section Line

variable {s : State}

theorem exec_rxdFalls_idle (unheld : s.isHeld = false) (idle : s.breakDetector = .idle) :
    exec .rxdFalls s = .next { s with rxd := .low, breakDetector := .timing s.clock } := by
  simp only [exec, execRxdFalls, unheld, idle, Bool.false_eq_true, if_false]

theorem exec_rxdRises (unheld : s.isHeld = false) : exec .rxdRises s = .next { s with rxd := .high, breakDetector := .idle } := by
  simp only [exec, execRxdRises, unheld, Bool.false_eq_true, if_false]

theorem exec_linkReset_timing {t : Nat} (unheld : s.isHeld = false) (timing : s.breakDetector = .timing t) :
    exec .linkReset s = .next (s.resetLink t) := by
  simp only [exec, execLinkReset, unheld, timing, Bool.false_eq_true, if_false]

/-- One break makes one link reset (R162). -/
theorem exec_linkReset_latched (latched : s.breakDetector = .latched) : exec .linkReset s = .next s := by
  simp only [exec, execLinkReset, latched, ite_self]

theorem exec_byteReceived_latched (latched : s.breakDetector = .latched) (b : Byte) : exec (.byteReceived b) s = .next s := by
  simp [exec, execByteReceived, State.deaf, latched]

end Line

/-- Settles O11. -/
theorem breakDetectorFollowsRxd : Obligations.BreakDetectorFollowsRxd := fun _ =>
  ⟨exec_rxdFalls_idle, exec_rxdRises, fun _ => exec_linkReset_timing,
    fun latched => ⟨exec_linkReset_latched latched, exec_byteReceived_latched latched⟩, rfl⟩

/-! ## The laws of the Link Port -/

/-- Load completion ends the START phase (R133). -/
theorem State.load_phase (s : State) : s.load.phase = .ready := rfl

namespace LinkSound

variable {s t : State}

/-- The laws read what stands aside, whether the part is held, and the START phase, which may have ended. -/
theorem congr (h : LinkSound s) (aside : t.aside = s.aside) (held : t.isHeld = s.isHeld)
    (start : t.phase = .start → s.phase = .start) : LinkSound t := by
  obtain ⟨receiver, interByte, breakDetector, lastReply, sending, waiting, -, rxd, -⟩ := Aside.mk.inj aside
  refine ⟨?_, ?_, ?_, ?_, ?_, ?_⟩
  · rw [interByte, receiver]
    exact h.timer
  · rw [receiver]
    exact h.partialFrame
  · rw [waiting, sending, held]
    exact h.order
  · rw [breakDetector, receiver]
    exact h.broken
  · rw [lastReply]
    exact fun hp => h.startClear (start hp)
  · rw [held, breakDetector, rxd]
    exact h.line

/-- A command that leaves what stands aside and the phase keeps the laws. -/
theorem of_aside (h : LinkSound s) (aside : t.aside = s.aside) (phase : t.phase = s.phase) : LinkSound t :=
  h.congr aside (State.isHeld_congr phase) fun hp => phase.symm.trans hp

/-- The receiver's return to HUNT (R152). -/
theorem toHunt (h : LinkSound s) : LinkSound s.toHunt :=
  { h with
    timer := iff_of_true rfl rfl
    partialFrame := trivial
    broken := fun _ => rfl }

/-- A frame offered leaves a frame in transmission (R160). -/
theorem offer (h : LinkSound s) (f : Frame) : LinkSound (s.offer f) where
  timer := by simpa using h.timer
  partialFrame := by simpa using h.partialFrame
  order := fun _ => .inl (s.offer_sending f)
  broken := by simpa using h.broken
  startClear := by simpa using h.startClear
  line := by simpa [State.isHeld] using h.line

/-- A byte within a frame restarts the inter-byte timer; none is taken while a break stands (R152, R162). -/
theorem receiving (h : LinkSound s) {r : Receiver} (unbroken : s.breakDetector ≠ .latched) (away : r ≠ .hunt)
    (sound : ReceiverSound r) : LinkSound (s.receiving r) :=
  { h with
    timer := iff_of_false (Option.some_ne_none _) away
    partialFrame := sound
    broken := fun latched => absurd latched unbroken }

/-- An executed request is answered in READY, so that the Last Reply Record stays clear in START (R158, R161). -/
theorem answered (h : LinkSound s) (ready : s.phase = .ready) (k : RequestKind) (q : Byte) (p : List Byte) (r : Reply) :
    LinkSound (answered s k q p r) :=
  { h.toHunt with
    order := fun _ => .inl (Option.some_ne_none _)
    startClear := fun start => absurd (ready.symm.trans start) (by simp) }

/-- Load completion leaves the START phase, in which the part was not held (R127). -/
theorem load (h : LinkSound s) (start : s.phase = .start) : LinkSound s.load :=
  h.congr (State.aside_eq State.load_setAside s)
    ((State.unheld_of_ready s.load_phase).trans (State.unheld_of_start start).symm) fun again => by cases again

/-- A reset condition cuts off the frame in transmission; what waits then waits behind none until the reset base (R123). -/
theorem heldBy (h : LinkSound s) (c : HoldCause) : LinkSound (s.heldBy c) := by
  have cut : LinkSound s.cutProgram :=
    h.of_aside (State.aside_eq State.cutProgram_setAside s) (by rw [State.cutProgram_frame])
  exact { cut with
    order := fun _ => .inr rfl
    startClear := fun start => by cases start
    line := fun unheld => by cases unheld }

/-- The reset base starts the break detector by the level of RXD (R126, R162). -/
theorem base (s : State) (cause : ResetCause) (rate : BitRate) : LinkSound (s.base cause rate) where
  timer := iff_of_true rfl rfl
  partialFrame := trivial
  order := fun waits => absurd rfl waits
  broken := fun _ => rfl
  startClear := fun _ => rfl
  line := fun _ => by
    simp only [State.base]
    cases s.rxd <;> simp

/-- At the end of a transmission no frame waits, but behind a RESTART's reply, after which the part is held (R125, R160). -/
theorem endSending (h : LinkSound s) (x : Sending) : LinkSound (s.endSending x) := by
  cases restarting : s.restarting with
  | true =>
    rw [State.endSending_restart restarting]
    exact { h with
      order := fun _ => .inr rfl
      startClear := fun start => by cases start
      line := fun unheld => by cases unheld }
  | false =>
    rw [State.endSending_plain restarting]
    exact { h with order := fun waits => absurd rfl waits }

/-- The link reset: the receiver in HUNT, the record clear, and the detector LATCHED while RXD is low (R135, R162). -/
theorem resetLink (h : LinkSound s) {since : Nat} (unheld : s.isHeld = false) (timing : s.breakDetector = .timing since) :
    LinkSound (s.resetLink since) := by
  have low : s.rxd ≠ .high := fun high => by
    have idle := (h.line unheld).2 high
    rw [timing] at idle
    cases idle
  exact { h.toHunt with
    startClear := fun _ => rfl
    broken := fun _ => rfl
    line := fun _ => iff_of_false (by simp [State.resetLink]) low }

/-- While the part is held RXD is not sampled (R123). -/
theorem withRxd_held (h : LinkSound s) (held : s.isHeld = true) (l : PinLevel) : LinkSound { s with rxd := l } :=
  { h with line := fun unheld => absurd (held.symm.trans unheld) (by simp) }

/-- A change of RXD that latches no break and leaves the detector IDLE exactly while RXD is high (R162). -/
theorem withLine (h : LinkSound s) {l : PinLevel} {b : BreakDetector} (broken : b = .latched → s.breakDetector = .latched)
    (line : b = .idle ↔ l = .high) : LinkSound { s with rxd := l, breakDetector := b } :=
  { h with
    broken := fun latched => h.broken (broken latched)
    line := fun _ => line }

/-- No command breaks the laws of the Link Port. -/
theorem change (h : LinkSound s) (k : Change s t) : LinkSound t := by
  cases k with
  | nothing => exact h
  | receives r hearing away sound => exact h.receiving (State.unbroken_of_hearing hearing) away (sound h.partialFrame)
  | answers f => exact h.toHunt.offer f
  | executes k q p ready =>
    have phase := (handlerOf_effect k p s).phase
    exact (h.of_aside (handlerOf_aside k p s) phase).answered (phase.trans ready) k q p _
  | expiry => exact h.of_aside (State.aside_eq State.expiry_setAside s) (CueWork.expiry s).phase
  | takeEdge => exact h.of_aside (State.aside_eq State.takeEdge_setAside s) s.takeEdge_phase
  | endProgram p o =>
    have aside := State.aside_eq (f := fun s => s.endProgram p o) (fun s a => s.endProgram_setAside a p o) s
    exact h.of_aside aside (s.endProgram_phase p o)
  | load start => exact h.load start
  | resetCondition c => exact h.heldBy c
  | base cause rate => exact .base s cause rate
  | oe l => exact { h with }
  | timeout =>
    have advanced : LinkSound (s.advanceTo s.timeoutAt) := h.of_aside rfl rfl
    exact advanced.toHunt.offer _
  | endSending x => exact h.endSending x
  | resetLink since unheld timing => exact h.resetLink unheld timing
  | fallsHeld held => exact h.withRxd_held held .low
  | fallsIdle => exact h.withLine (by simp) (by simp)
  | fallsAgain _ away => exact h.withLine id (by simpa using away)
  | risesHeld held => exact h.withRxd_held held .high
  | rises => exact h.withLine (by simp) (by simp)

end LinkSound

/-- Settles O12: the link's own events keep the laws, and every other command leaves what they read, but for the answer of an executed
request, load completion and the resets. -/
theorem linkSoundIsKept : Obligations.LinkSoundIsKept := fun _ _ _ sound k => sound.change (exec_change k)

end Sys2Proof.Machine
end

section
/-!
The Report Queue: a report event (R141), FETCH (R144, R171), and the laws that every command keeps (R137, R140, R142).
-/
namespace Sys2Proof.Machine

/-! ## A report event (R141) -/

/-- A report lost into a new OVERFLOW record, which takes its number (R141). -/
theorem State.report_begins_overflow {s : State} (overflow : s.overflow = none) (full : 15 ≤ s.reports.length) (b : ReportBody) :
    s.report b = { s with
      overflow := some { first := s.nextReport, lost := 1, time := s.uptime }
      nextReport := s.nextReport + 1 } := by
  rw [State.report, overflow]
  exact if_neg (Nat.not_lt.2 full)

/-- A report lost while the OVERFLOW record stands is counted in it (R141, R142). -/
theorem State.report_counts {s : State} {o : Overflow} (overflow : s.overflow = some o) (b : ReportBody) :
    s.report b = { s with
      overflow := some { o with lost := min 65535 (o.lost + 1) }
      nextReport := s.nextReport + 1 } := by
  rw [State.report, overflow]

/-- A count that advances up to 65535 (R142). -/
theorem min_succ_eq (lost : Nat) : min 65535 (lost + 1) = if lost < 65535 then lost + 1 else 65535 := by
  split <;> omega

/-- Settles O57. -/
theorem reportEvent : Obligations.ReportEvent := by
  intro s b
  refine ⟨fun overflow room => State.report_append overflow room b, fun overflow full => State.report_begins_overflow overflow full b,
    fun o overflow => ?_⟩
  rw [State.report_counts overflow, min_succ_eq]

/-! ## FETCH (R144, R171) -/

theorem handleFetch_byteOf {m : Nat} (low : 1 ≤ m) (high : m ≤ 16) (s : State) : handleFetch [byteOf m] s = fetch m s := by
  simp only [handleFetch, fetchMax?_byteOf m low high]

/-- The number of records that leave is the smaller of the maximum and what is queued (R144). -/
theorem fetch_eq (m : Nat) (s : State) :
    fetch m s = accept (s.dropReports m) (byteOf (min m s.queueBytes.length) :: (s.queueBytes.take m).flatten) := by
  rw [fetch, List.length_take]

/-! ### The bytes of a record (R191) -/

theorem bytes16_toNat (w : Half) : bytes16 w.toNat = [w.extractLsb' 8 8, w.extractLsb' 0 8] := by
  have high : BitVec.ofNat 8 (w.toNat / 256) = w.extractLsb' 8 8 := by
    simp [BitVec.extractLsb', Nat.shiftRight_eq_div_pow]
  have low : BitVec.ofNat 8 w.toNat = w.extractLsb' 0 8 := by
    simp [BitVec.extractLsb']
  rw [bytes16, high, low]

theorem bytes16_eq (n : Nat) : bytes16 n = [byteOf (n / 256), byteOf (n % 256)] := by
  have low : BitVec.ofNat 8 n = BitVec.ofNat 8 (n % 256) := by
    rw [← BitVec.toNat_inj]
    simp
  rw [bytes16, low]
  rfl

/-- The fallback flag stands above the generation's bits. -/
theorem noteByte_eq (n : LoadNote) (h : n.generation ≤ 4) :
    noteByte n = (if n.fallback then 0x80 else 0x00) ||| byteOf n.generation := by
  have every : ∀ (g : Fin 5) (f : Bool),
      byteOf (g.val + if f then 128 else 0) = (if f then 0x80 else 0x00) ||| byteOf g.val := by decide
  exact every ⟨n.generation, Nat.lt_succ_of_le h⟩ n.fallback

/-- An ordinary record is its kind, its number and its time high byte first, and the body of its kind (R191). -/
theorem reportBytes_eq (number : Half) (time : Wide) (b : ReportBody) :
    reportBytes { number := number, time := time, body := b } =
      [reportCode b, number.extractLsb' 8 8, number.extractLsb' 0 8, time.extractLsb' 24 8, time.extractLsb' 16 8,
        time.extractLsb' 8 8, time.extractLsb' 0 8] ++ reportBodyBytes b := by
  rw [reportBytes, bytes16_toNat]
  rfl

/-- The OVERFLOW record's number field repeats the first lost number of its body (R140, R191). -/
theorem overflowBytes_eq (first : Half) (lost : Nat) (time : Wide) :
    overflowBytes { first := first, lost := lost, time := time } =
      [0x0F, first.extractLsb' 8 8, first.extractLsb' 0 8, time.extractLsb' 24 8, time.extractLsb' 16 8, time.extractLsb' 8 8,
        time.extractLsb' 0 8] ++
        [first.extractLsb' 8 8, first.extractLsb' 0 8, byteOf (lost / 256), byteOf (lost % 256), 0, 0, 0] := by
  rw [overflowBytes, bytes16_toNat, bytes16_eq]
  rfl

/-- Settles O56: the handler's queue is the statement's, the OVERFLOW record last, and the record bytes go kind by kind. -/
theorem fetchRemovesFromTheHead : Obligations.FetchRemovesFromTheHead := by
  refine ⟨fun s q => formRefusals (fun _ => rfl) (by simp) s, fun s q m low high he => ?_, fun number time => ?_, noteByte_eq⟩
  · intro records
    have queue : s.queueBytes = records := by
      refine congrArg (s.reports.map reportBytes ++ ·) ?_
      cases s.overflow <;> rfl
    rw [exec_of_executes he rfl (by simp), handlerOf, handleFetch_byteOf low high, fetch_eq, queue]
    rfl
  · refine ⟨fun cause c t s l => reportBytes_eq .., fun id cue out d k o x => ?_, fun id c src => reportBytes_eq ..,
      fun c src why => reportBytes_eq .., fun k g => ⟨reportBytes_eq .., reportBytes_eq ..⟩,
      fun lost _ => overflowBytes_eq number lost time⟩
    cases cue <;> exact reportBytes_eq ..

/-! ## The laws of the queue -/

/-! ### Consecutive numbers (R140) -/

namespace NumbersEnd

/-- The record that takes the next number continues the run. -/
theorem append {next : Half} (time : Wide) (b : ReportBody) : ∀ {q : List Report}, NumbersEnd q next →
    NumbersEnd (q ++ [{ number := next, time := time, body := b }]) (next + 1)
  | [], _ => rfl
  | [_], h => ⟨h, rfl⟩
  | _ :: _ :: _, ⟨h, run⟩ => ⟨h, append time b run⟩

theorem tail {next : Half} : ∀ {q : List Report}, NumbersEnd q next → NumbersEnd q.tail next
  | [], _ => trivial
  | [_], _ => trivial
  | _ :: _ :: _, ⟨_, run⟩ => run

/-- Records that leave from the head break no run. -/
theorem drop {q : List Report} {next : Half} (h : NumbersEnd q next) (m : Nat) : NumbersEnd (q.drop m) next := by
  induction m with
  | zero => exact h
  | succ m ih =>
    rw [← List.tail_drop]
    exact ih.tail

end NumbersEnd

/-! ### The two forms of a lawful queue -/

/-- The Report Queue and its counter are the same. -/
def SameQueue (s t : State) : Prop := t.reports = s.reports ∧ t.overflow = s.overflow ∧ t.nextReport = s.nextReport

namespace QueueSound

variable {s t : State}

theorem congr (h : QueueSound s) (same : SameQueue s t) : QueueSound t := by
  obtain ⟨reports, overflow, next⟩ := same
  rw [QueueSound, reports, overflow, next]
  exact h

/-- The laws with no OVERFLOW record. -/
theorem iff_of_none (overflow : s.overflow = none) :
    QueueSound s ↔ s.reports.length ≤ 15 ∧ NumbersEnd s.reports s.nextReport := by
  rw [QueueSound, overflow]

/-- The laws with an OVERFLOW record. -/
theorem iff_of_some {o : Overflow} (overflow : s.overflow = some o) :
    QueueSound s ↔ s.reports.length ≤ 15 ∧ NumbersEnd s.reports o.first ∧ 1 ≤ o.lost ∧ o.lost ≤ 65535 ∧
      (o.lost < 65535 → s.nextReport = o.first + BitVec.ofNat 16 o.lost) := by
  rw [QueueSound, overflow]

/-- A report event keeps the laws: its number continues the run, begins the lost numbers, or is the next of them. -/
theorem report (h : QueueSound s) (b : ReportBody) : QueueSound (s.report b) := by
  cases overflow : s.overflow with
  | none =>
    obtain ⟨atMost, run⟩ := (iff_of_none overflow).1 h
    by_cases room : s.reports.length < 15
    · have length : (s.reports ++ [Report.mk s.nextReport s.uptime b]).length ≤ 15 := by
        rw [List.length_append]
        exact room
      rw [State.report_append overflow room]
      exact Iff.mpr (iff_of_none overflow) ⟨length, run.append s.uptime b⟩
    · rw [State.report_begins_overflow overflow (Nat.le_of_not_lt room)]
      exact Iff.mpr (iff_of_some rfl) ⟨atMost, run, le_rfl, Nat.le_of_ble_eq_true rfl, fun _ => rfl⟩
  | some o =>
    obtain ⟨atMost, run, lostSome, capped, counted⟩ := (iff_of_some overflow).1 h
    have advanced (below : min 65535 (o.lost + 1) < 65535) :
        s.nextReport + 1 = o.first + BitVec.ofNat 16 (min 65535 (o.lost + 1)) := by
      have unfilled : o.lost + 1 < 65535 := by omega
      rw [counted (by omega), Nat.min_eq_right unfilled.le, BitVec.ofNat_add, ← BitVec.add_assoc]
      rfl
    rw [State.report_counts overflow]
    exact Iff.mpr (iff_of_some rfl) ⟨atMost, run, le_min (by omega) (by omega), Nat.min_le_left _ _, advanced⟩

/-- FETCH takes the OVERFLOW record only when no ordinary record stays (R144). -/
theorem dropReports (h : QueueSound s) (m : Nat) : QueueSound (s.dropReports m) := by
  have fewer : (s.reports.drop m).length ≤ s.reports.length := by
    rw [List.length_drop]
    exact Nat.sub_le _ _
  cases overflow : s.overflow with
  | none =>
    obtain ⟨atMost, run⟩ := (iff_of_none overflow).1 h
    have still : (s.dropReports m).overflow = none := by rw [State.dropReports, overflow, ite_self]
    exact (iff_of_none still).2 ⟨fewer.trans atMost, run.drop m⟩
  | some o =>
    obtain ⟨atMost, run, count⟩ := (iff_of_some overflow).1 h
    by_cases all : s.reports.length < m
    · have empty : s.reports.drop m = [] := List.drop_eq_nil_of_le all.le
      have left : (s.dropReports m).overflow = none := if_pos all
      rw [iff_of_none left, State.dropReports_reports, empty]
      exact ⟨Nat.zero_le _, trivial⟩
    · have stays : (s.dropReports m).overflow = some o := (if_neg all).trans overflow
      exact (iff_of_some stays).2 ⟨fewer.trans atMost, run.drop m, count⟩

/-! ### The Cue Engine writes the queue by report events alone -/

/-- What each step of a fold keeps, the fold keeps. -/
theorem foldl {α : Type} {f : State → α → State} (hf : ∀ {s}, QueueSound s → ∀ x, QueueSound (f s x)) (h : QueueSound s)
    (l : List α) : QueueSound (l.foldl f s) := by
  induction l generalizing s with
  | nil => exact h
  | cons x l ih => exact ih (hf h x)

theorem mapChannels (h : QueueSound s) (f : ChannelNo → Channel → Channel) : QueueSound (s.mapChannels f) := h.congr ⟨rfl, rfl, rfl⟩

theorem mapActive (h : QueueSound s) (f : Instance → Instance) : QueueSound (s.mapActive f) := h.congr ⟨rfl, rfl, rfl⟩

theorem recode (h : QueueSound s) (p : Channel → Bool) : QueueSound (s.recode p) := h.mapChannels _

theorem recodeAll (h : QueueSound s) : QueueSound s.recodeAll := h.recode _

theorem mapSelected (h : QueueSound s) (mask : Half) (f : Channel → Channel) : QueueSound (s.mapSelected mask f) := h.mapChannels _

theorem startEntry (h : QueueSound s) (id : Byte) (e : CueEntry) : QueueSound (s.startEntry id e) := by
  unfold State.startEntry
  split
  · exact h.mapActive _
  · split
    · exact ((h.mapActive _).mapActive _).mapChannels _
    · exact ((h.mapActive _).mapActive _).mapChannels _

theorem handOff (h : QueueSound s) (c : CueIdx) : QueueSound (s.handOff c) := by
  unfold State.handOff
  split
  · exact h.congr ⟨rfl, rfl, rfl⟩
  · exact h.report _

theorem complete (h : QueueSound s) (i : Instance) : QueueSound (s.complete i) := by
  unfold State.complete
  split
  · exact (h.report _).handOff _
  · exact h.report _

theorem sweep (h : QueueSound s) : QueueSound s.sweep := by
  have dropped : QueueSound s.dropFinished := h.congr ⟨rfl, rfl, rfl⟩
  exact dropped.foldl complete _

theorem announce (h : QueueSound s) (i : Instance) : QueueSound (s.announce i) := by
  unfold State.announce
  split
  · exact h.report _
  · exact h.report _
  · exact h

theorem launch (h : QueueSound s) (i : Instance) : QueueSound (s.launch i) := by
  have joined : QueueSound (s.join i) := h.congr ⟨rfl, rfl, rfl⟩
  exact ((joined.announce i).foldl (fun hs e => hs.startEntry i.id e) i.atOnce).sweep

theorem startCue (h : QueueSound s) (c : CueIdx) (source : StartSource) (r : CueRecord) : QueueSound (s.startCue c source r) := by
  have taken : QueueSound s.takeId := h.congr ⟨rfl, rfl, rfl⟩
  exact taken.launch _

theorem startReported (h : QueueSound s) (c : CueIdx) (source : StartSource) : QueueSound (s.startReported c source) := by
  unfold State.startReported
  split
  · exact h.startCue c source _
  · exact h
  · exact h.report _

theorem stopInstance (h : QueueSound s) (i : Instance) : QueueSound (s.stopInstance i) := by
  have left : QueueSound ((s.releaseFades i).removeInstance i) := h.congr ⟨rfl, rfl, rfl⟩
  exact left.report _

theorem stopAll (h : QueueSound s) : QueueSound (s.active.foldl State.stopInstance s).clearFollows :=
  (h.foldl stopInstance s.active).congr ⟨rfl, rfl, rfl⟩

theorem startDueOn (h : QueueSound s) (c : ChannelNo) : QueueSound (s.startDueOn c) := by
  unfold State.startDueOn
  split
  · exact h
  · split
    · exact h
    · exact (h.mapActive _).startEntry _ _

theorem cueWork (h : QueueSound s) : QueueSound s.cueWork := by
  unfold State.cueWork
  split
  · have stepped : QueueSound s.stepFades := (h.mapChannels _).mapActive _
    have elapsed : QueueSound s.stepFades.advanceElapsed := stepped.mapActive _
    exact (elapsed.foldl startDueOn _).sweep
  · exact h

theorem serveOne (h : QueueSound s) : QueueSound s.serveOne := by
  unfold State.serveOne
  split
  · exact h
  · rename_i c _ _
    have dropped : QueueSound s.dropFollow := h.congr ⟨rfl, rfl, rfl⟩
    exact dropped.startReported c .follow

theorem serve (h : QueueSound s) (n : Nat) : QueueSound (State.serve n s) := by
  induction n generalizing s with
  | zero => exact h
  | succ n ih => exact ih h.serveOne

theorem expiry (h : QueueSound s) : QueueSound s.expiry := by
  have ticked : QueueSound s.tick := h.congr ⟨rfl, rfl, rfl⟩
  exact ticked.cueWork.serve _

theorem takeEdge (h : QueueSound s) : QueueSound s.takeEdge := by
  have marked : QueueSound s.markEdge := h.congr ⟨rfl, rfl, rfl⟩
  unfold State.takeEdge
  split
  · exact marked
  · rename_i a _
    have started := marked.startReported a.cue .goLine
    unfold State.fire
    split
    · exact started.congr ⟨rfl, rfl, rfl⟩
    · exact started

/-! ### Every command -/

theorem setLevel (h : QueueSound s) (mask : Half) (level : Nat) : QueueSound (Machine.setLevel mask level s).1 := by
  rw [setLevel_state]
  exact ((h.mapSelected mask _).mapActive _).sweep

theorem trimSet (h : QueueSound s) (mask : Half) (trim : Int) : QueueSound (Machine.trimSet mask trim s).1 := by
  rw [trimSet_state]
  exact h.mapSelected mask _

theorem trimSource (h : QueueSound s) (mask : Half) (x : TrimSource) : QueueSound (setTrimSource mask x s).1 := by
  rw [setTrimSource_state]
  exact h.mapSelected mask _

theorem setProfile (h : QueueSound s) (p : Profile) :
    QueueSound { s with profile := p, heldFrom := s.heldFromAfter p }.recodeAll := by
  have written : QueueSound { s with profile := p, heldFrom := s.heldFromAfter p } := h.congr ⟨rfl, rfl, rfl⟩
  exact written.recodeAll

theorem writeCurve (h : QueueSound s) (k : SlotNo) (c : Curve) : QueueSound (s.writeCurve k c) := by
  have written : QueueSound (s.setCurve k c) := h.congr ⟨rfl, rfl, rfl⟩
  exact written.recode _

theorem applyCurves (h : QueueSound s) (v : Vector Curve 7) : QueueSound (s.applyCurves v) := by
  have written : QueueSound (s.setCurves v) := h.congr ⟨rfl, rfl, rfl⟩
  exact written.recode _

theorem writeTrims (h : QueueSound s) (v : Vector Int 16) : QueueSound (s.writeTrims v) := h.mapChannels _

theorem applyTrims (h : QueueSound s) (v : Vector Int 16) : QueueSound (s.applyTrims v) := (h.writeTrims v).recode _

theorem writeClass (h : QueueSound s) (p : RunProfile) (k : Fin 6) : QueueSound (s.writeClass p k) := by
  cases p <;> exact h.congr ⟨rfl, rfl, rfl⟩

/-- FETCH takes from the head, cues report their starts and ends, and no other request writes the queue. -/
theorem effect (h : QueueSound s) (k : RequestEffect s t) : QueueSound t := by
  cases k with
  | fetch m => exact h.dropReports m
  | setLevel mask level => exact h.setLevel mask level
  | cueGo c r => exact h.startCue c .request r
  | cueStop i => exact h.stopInstance i
  | cueStopAll => exact h.stopAll
  | replay x => exact h.launch _
  | setProfile p => exact h.setProfile p
  | setCeilingInForce p k => exact (h.writeClass p k).recodeAll
  | setCeilingAside p k => exact h.writeClass p k
  | curveWrite k c => exact h.writeCurve k c
  | bind mask k => exact h.mapSelected mask _
  | trimSet mask trim => exact h.trimSet mask trim
  | trimSource mask x => exact h.trimSource mask x
  | loadCurves => exact h.applyCurves _
  | loadTrims => exact h.applyTrims _
  | _ => exact h.congr ⟨rfl, rfl, rfl⟩

theorem afterProgram (h : QueueSound s) (p : Program) (o : ReadBack) : QueueSound (s.afterProgram p o) := by
  unfold State.afterProgram
  split
  · split
    · exact h.applyTrims _
    · exact h
  · exact h

theorem endProgram (h : QueueSound s) (p : Program) (o : ReadBack) : QueueSound (s.endProgram p o) := by
  have settled : QueueSound (s.settleProgram p o) := h.congr ⟨rfl, rfl, rfl⟩
  exact ((settled.report _).afterProgram p o).congr ⟨rfl, rfl, rfl⟩

theorem loadArray (h : QueueSound s) : QueueSound s.loadArray := by
  have taken : QueueSound s.readArray.takeLoaded := h.congr ⟨rfl, rfl, rfl⟩
  exact (taken.writeTrims _).recodeAll

theorem applyScene (h : QueueSound s) (x : Scene) : QueueSound (s.applyScene x) := by
  have bound : QueueSound (s.bindScene x) := h.mapChannels _
  have profiled : QueueSound { s.bindScene x with
      profile := x.profile.toProfile
      activeClass := x.activeClass
      economyClass := x.economyClass } := bound.congr ⟨rfl, rfl, rfl⟩
  rw [State.applyScene]
  exact profiled.recodeAll

theorem applyLoaded (h : QueueSound s) : QueueSound s.applyLoaded := by
  unfold State.applyLoaded
  split
  · exact h.applyScene _
  · exact h

theorem playLoaded (h : QueueSound s) : QueueSound s.playLoaded := by
  unfold State.playLoaded
  split
  · exact h.launch _
  · exact h

/-- Load completion reports the start, and the start-up instance completes as any other (R131, R132). -/
theorem load (h : QueueSound s) : QueueSound s.load := by
  have reported : QueueSound (s.loadArray.applyLoaded.report s.loadArray.applyLoaded.startBody) :=
    h.loadArray.applyLoaded.report _
  have ready {u : State} (hu : QueueSound u) : QueueSound u.becomeReady := hu.congr ⟨rfl, rfl, rfl⟩
  rw [State.load_eq]
  exact ready reported.playLoaded

theorem endSending (h : QueueSound s) (x : Sending) : QueueSound (s.endSending x) := by
  unfold State.endSending
  split <;> exact h.congr ⟨rfl, rfl, rfl⟩

/-- The reset base empties the queue (R126). -/
theorem base (s : State) (cause : ResetCause) (rate : BitRate) : QueueSound (s.base cause rate) := ⟨Nat.zero_le _, trivial⟩

theorem offer (h : QueueSound s) (f : Frame) : QueueSound (s.offer f) := h.congr (by simp [SameQueue])

/-- No command breaks the laws of the Report Queue. -/
theorem change (h : QueueSound s) (k : Change s t) : QueueSound t := by
  cases k with
  | answers f =>
    have hunts : QueueSound s.toHunt := h.congr ⟨rfl, rfl, rfl⟩
    exact hunts.offer f
  | executes k q p => exact (h.effect (handlerOf_effect k p s)).congr ⟨rfl, rfl, rfl⟩
  | expiry => exact h.expiry
  | takeEdge => exact h.takeEdge
  | endProgram p o => exact h.endProgram p o
  | load => exact h.load
  | resetCondition c =>
    rw [State.cutProgram_frame]
    exact h.congr ⟨rfl, rfl, rfl⟩
  | base cause rate => exact base s cause rate
  | timeout =>
    have hunts : QueueSound (s.advanceTo s.timeoutAt).toHunt := h.congr ⟨rfl, rfl, rfl⟩
    exact hunts.offer _
  | endSending x => exact h.endSending x
  | _ => exact h.congr ⟨rfl, rfl, rfl⟩

end QueueSound

/-- Settles O58: the queue is written by report events, by FETCH and by the reset base, and each keeps the laws. -/
theorem queueSoundIsKept : Obligations.QueueSoundIsKept := fun _ _ _ sound k => sound.change (exec_change k)

end Sys2Proof.Machine
end

section
/-!
The receiver byte by byte: a byte in each of its states (R152, R154), the inter-byte timeout (R153), the judgement of a complete frame
(R155), and that the bytes of a frame act as the request row that stands for it (R150, R151, log 1).
-/
namespace Sys2Proof.Machine

section Bytes

variable {s : State} {b q kind : Byte} {got : List Byte}

/-! ## A byte in each state of the receiver (R152, R154) -/

/-- A part that receives takes the byte. -/
theorem exec_byteReceived_hearing (hearing : s.deaf = false) (b : Byte) : exec (.byteReceived b) s = .next (s.takeByte b) := by
  simp only [exec, execByteReceived, hearing, Bool.false_eq_true, if_false]

/-- A part that is held, or at which a break stands, loses the byte (R123, R162). -/
theorem exec_byteReceived_deaf (deaf : s.deaf = true) (b : Byte) : exec (.byteReceived b) s = .next s := by
  simp only [exec, execByteReceived, deaf, if_true]

theorem State.takeByte_hunt_start (here : s.receiver = .hunt) : s.takeByte 0xC3 = s.receiving .headerSeq := by
  simp only [State.takeByte, here, if_true]

theorem State.takeByte_hunt_other (here : s.receiver = .hunt) (other : b ≠ 0xC3) : s.takeByte b = s := by
  simp only [State.takeByte, here, if_neg other]

theorem State.takeByte_headerSeq (here : s.receiver = .headerSeq) : s.takeByte b = s.receiving (.headerKind b) := by
  simp only [State.takeByte, here]

theorem State.takeByte_headerKind (here : s.receiver = .headerKind q) : s.takeByte b = s.receiving (.headerLength q b) := by
  simp only [State.takeByte, here]

theorem State.takeByte_length_zero (here : s.receiver = .headerLength q kind) (empty : b.toNat = 0) :
    s.takeByte b = s.receiving (.checkHigh q kind []) := by
  have fits : ¬Config.maxPayload < b.toNat := by simp [empty]
  simp only [State.takeByte, here, if_neg fits, if_pos empty]

theorem State.takeByte_length_fits (here : s.receiver = .headerLength q kind) (nonempty : 1 ≤ b.toNat) (fits : b.toNat ≤ 240) :
    s.takeByte b = s.receiving (.payload q kind b.toNat []) := by
  have nonzero : b.toNat ≠ 0 := Nat.ne_of_gt nonempty
  have accepted : ¬Config.maxPayload < b.toNat := Nat.not_lt.2 fits
  simp only [State.takeByte, here, if_neg accepted, if_neg nonzero]

theorem State.takeByte_length_tooLong (here : s.receiver = .headerLength q kind) (tooLong : 240 < b.toNat) :
    s.takeByte b = huntAndOffer s (rejectFrame q .tooLong) := by
  have refused : Config.maxPayload < b.toNat := tooLong
  simp only [State.takeByte, here, if_pos refused]
  rfl

theorem State.takeByte_payload_more {n : Nat} (here : s.receiver = .payload q kind n got) (more : got.length + 1 < n) :
    s.takeByte b = s.receiving (.payload q kind n (got ++ [b])) := by
  simp only [State.takeByte, here, if_neg (Nat.not_le.2 more)]

theorem State.takeByte_payload_last {n : Nat} (here : s.receiver = .payload q kind n got) (last : got.length + 1 = n) :
    s.takeByte b = s.receiving (.checkHigh q kind (got ++ [b])) := by
  simp only [State.takeByte, here, if_pos last.ge]

theorem State.takeByte_checkHigh (here : s.receiver = .checkHigh q kind got) :
    s.takeByte b = s.receiving (.checkLow q kind got b) := by
  simp only [State.takeByte, here]

theorem State.takeByte_checkLow {h : Byte} (here : s.receiver = .checkLow q kind got h) :
    s.takeByte b = s.judge q kind got (h ++ b) := by
  simp only [State.takeByte, here]

end Bytes

/-- Settles O6: each clause is the equation of `takeByte` in that state of the receiver. -/
theorem receiverTakesBytes : Obligations.ReceiverTakesBytes := by
  intro s b hearing
  dsimp only
  rw [exec_byteReceived_hearing hearing]
  refine ⟨fun here start => ?_, fun here other => ?_, fun here => ?_, fun q here => ?_, fun q k here empty => ?_,
    fun q k here nonempty fits => ?_, fun q k here tooLong => ?_, fun q k n got here more => ?_, fun q k n got here last => ?_,
    fun q k got here => ?_⟩
  · rw [start, State.takeByte_hunt_start here]
    rfl
  · rw [State.takeByte_hunt_other here other]
  · rw [State.takeByte_headerSeq here]
    rfl
  · rw [State.takeByte_headerKind here]
    rfl
  · rw [State.takeByte_length_zero here empty]
    rfl
  · rw [State.takeByte_length_fits here nonempty fits]
    rfl
  · rw [State.takeByte_length_tooLong here tooLong]
  · rw [State.takeByte_payload_more here more]
    rfl
  · rw [State.takeByte_payload_last here last]
    rfl
  · rw [State.takeByte_checkHigh here]
    rfl

/-! ## The inter-byte timeout (R153) -/

section Timeout

variable {s : State}

/-- In HUNT the inter-byte timer is idle (R152). -/
theorem exec_interByteTimeout_hunt (hunting : s.receiver = .hunt) : exec .interByteTimeout s = .next s := by
  simp [exec, execInterByteTimeout, hunting]

/-- Outside HUNT the timer's end discards the partial frame. -/
theorem exec_interByteTimeout_partial {t : Nat} (unheld : s.isHeld = false) (away : s.receiver ≠ .hunt)
    (timer : s.interByte = some t) : exec .interByteTimeout s =
      .next (huntAndOffer { s with clock := max s.clock (t + 5000) } (rejectFrame s.receiver.sequence .truncated)) := by
  have ends : s.timeoutAt = t + 5000 := by rw [State.timeoutAt, timer]; rfl
  have due : (s.isHeld || decide (s.receiver = .hunt)) = false := by simp [unheld, away]
  simp only [exec, execInterByteTimeout, due, Bool.false_eq_true, if_false, ends]
  rfl

end Timeout

/-- Settles O10: the sequence that the REJECT carries is `Receiver.sequence`, which each state of the receiver gives. -/
theorem interByteTimeoutTruncates : Obligations.InterByteTimeoutTruncates := by
  intro s unheld
  refine ⟨exec_interByteTimeout_hunt, fun t timer => ?_⟩
  have ends {r : Receiver} (away : r ≠ .hunt) (here : s.receiver = r) : exec .interByteTimeout s =
      .next (huntAndOffer { s with clock := max s.clock (t + 5000) } (rejectFrame r.sequence .truncated)) :=
    here ▸ exec_interByteTimeout_partial unheld (here ▸ away) timer
  exact ⟨ends nofun, fun _ => ends nofun, fun _ _ => ends nofun, fun _ _ _ _ => ends nofun, fun _ _ _ => ends nofun,
    fun _ _ _ _ => ends nofun⟩

/-! ## The judgement of a complete frame (R155) -/

theorem requestKind?_code (k : RequestKind) : requestKind? k.code = some k := by cases k <;> rfl

theorem requestKind?_unknown {kind : Byte} (unknown : ∀ k : RequestKind, k.code ≠ kind) : requestKind? kind = none :=
  List.find?_eq_none.2 fun k _ => by simpa using unknown k

section Judge

variable {s : State} {q kind : Byte} {got : List Byte} {check : Half}

theorem State.judge_badCheck (wrong : check ≠ frameCheck q kind got) :
    s.judge q kind got check = huntAndOffer s (rejectFrame q .badCheck) := if_pos wrong

theorem State.judge_start (right : check = frameCheck q kind got) (start : s.phase = .start) :
    s.judge q kind got check = huntAndOffer s (rejectFrame q .notReady) := by
  rw [State.judge, if_neg (not_not.2 right), if_pos start]
  rfl

theorem State.judge_unknownKind (right : check = frameCheck q kind got) (ready : s.phase = .ready)
    (unknown : ∀ k : RequestKind, k.code ≠ kind) : s.judge q kind got check = huntAndOffer s (rejectFrame q .unknownKind) := by
  rw [State.judge, if_neg (not_not.2 right), if_neg (by simp [ready]), requestKind?_unknown unknown]
  rfl

/-- A right check on a frame of the catalogue completes the request, in READY and in START alike. -/
theorem State.judge_request {k : RequestKind} (right : check = frameCheck q k.code got) :
    s.judge q k.code got check = s.takeRequest k (handlerOf k) q got := by
  rw [State.judge, if_neg (not_not.2 right), requestKind?_code]
  rfl

end Judge

/-- Settles O5: the byte completes the check, and the four clauses are the four cases of `judge`. -/
theorem completeFrameIsJudged : Obligations.CompleteFrameIsJudged := by
  intro s b q kind h got hearing here _
  rw [exec_byteReceived_hearing hearing, State.takeByte_checkLow here]
  refine ⟨fun wrong => ?_, fun right start => ?_, fun right ready unknown => ?_, fun right ready i k hi hk hw => ?_⟩
  · rw [State.judge_badCheck wrong]
  · rw [State.judge_start right start]
  · rw [State.judge_unknownKind right ready unknown]
  · subst hk
    rw [State.judge_request right, exec_request_of_hearing hi hw hearing]

/-! ## The bytes of a frame, one after another (R150, R151) -/

/-- A part that takes no byte stands through any run of bytes. -/
theorem feed_deaf {s : State} (deaf : s.deaf = true) (bytes : List Byte) : feed bytes s = .next s := by
  induction bytes with
  | nil => rfl
  | cons b rest ih => simp only [feed, exec_byteReceived_deaf deaf, ih]

section Frames

variable {s : State} {q kind : Byte} (hearing : s.deaf = false)

include hearing

theorem feed_cons_hearing (b : Byte) (rest : List Byte) : feed (b :: rest) s = feed rest (s.takeByte b) := by
  simp only [feed, exec_byteReceived_hearing hearing]

/-- A byte that the receiver takes to state `r'`. The byte before it left the state `s.receiving r`, of which `r` alone matters. -/
theorem feed_cons_receiving {r r' : Receiver} {b : Byte} (rest : List Byte)
    (takes : (s.receiving r).takeByte b = (s.receiving r).receiving r') :
    feed (b :: rest) (s.receiving r) = feed rest (s.receiving r') :=
  (feed_cons_hearing (s := s.receiving r) hearing b rest).trans (congrArg (feed rest) takes)

/-- Start byte, sequence and kind. -/
theorem feed_header (hunting : s.receiver = .hunt) (rest : List Byte) :
    feed (0xC3 :: q :: kind :: rest) s = feed rest (s.receiving (.headerLength q kind)) := by
  rw [feed_cons_hearing hearing, State.takeByte_hunt_start hunting, feed_cons_receiving hearing _ (State.takeByte_headerSeq rfl),
    feed_cons_receiving hearing _ (State.takeByte_headerKind rfl)]

/-- The payload bytes still missing, at least one, bring the receiver to CHECK. -/
theorem feed_payload (tail : List Byte) : ∀ (missing got : List Byte) (b : Byte),
    feed (b :: missing ++ tail) (s.receiving (.payload q kind (got.length + missing.length + 1) got)) =
      feed tail (s.receiving (.checkHigh q kind (got ++ b :: missing)))
  | [], got, b => feed_cons_receiving hearing tail (State.takeByte_payload_last rfl rfl)
  | c :: missing, got, b => by
    have more : got.length + 1 < got.length + (c :: missing).length + 1 := by simp
    have counted : got.length + (c :: missing).length + 1 = (got ++ [b]).length + missing.length + 1 := by simp; omega
    rw [List.cons_append, feed_cons_receiving hearing _ (State.takeByte_payload_more rfl more), counted,
      feed_payload tail missing (got ++ [b]) c, List.append_assoc]
    rfl

/-- The length byte and the payload. -/
theorem feed_length_payload {p : List Byte} (fits : p.length ≤ 240) (tail : List Byte) :
    feed (byteOf p.length :: (p ++ tail)) (s.receiving (.headerLength q kind)) = feed tail (s.receiving (.checkHigh q kind p)) := by
  have counted : (byteOf p.length).toNat = p.length := toNat_byteOf _ (by omega)
  cases p with
  | nil => exact feed_cons_receiving hearing tail (State.takeByte_length_zero rfl counted)
  | cons b rest =>
    have nonempty : 1 ≤ (byteOf (b :: rest).length).toNat := counted.ge.trans' (Nat.le_add_left 1 rest.length)
    rw [feed_cons_receiving hearing _ (State.takeByte_length_fits rfl nonempty (counted.trans_le fits)), counted]
    have payload := feed_payload (q := q) (kind := kind) hearing tail rest [] b
    rwa [List.length_nil, Nat.zero_add] at payload

/-- The two bytes of the check. -/
theorem feed_check (p : List Byte) (high low : Byte) :
    feed [high, low] (s.receiving (.checkHigh q kind p)) = .next (s.judge q kind p (high ++ low)) := by
  have last : feed [low] (s.receiving (.checkLow q kind p high)) = .next (s.judge q kind p (high ++ low)) :=
    feed_cons_hearing (s := s.receiving (.checkLow q kind p high)) hearing low []
  rw [feed_cons_receiving hearing _ (State.takeByte_checkHigh rfl), last]

/-- A whole frame, received in HUNT, is judged with the check it carries. -/
theorem feed_frameBytes {f : Frame} (hunting : s.receiver = .hunt) (fits : f.payload.length ≤ 240) :
    feed (frameBytes f) s = .next (s.judge f.seq f.kind f.payload (frameCheck f.seq f.kind f.payload)) := by
  simp only [frameBytes, List.cons_append, List.nil_append]
  rw [feed_header hearing hunting, feed_length_payload hearing fits, feed_check hearing, append_extract]

end Frames

/-- A part that takes no byte loses a request's frame as well. -/
theorem exec_request_deaf {i : Instr} {k : RequestKind} {q : Byte} {p : List Byte} {s : State} (hi : requestOf i = some (k, q, p))
    (hw : i.wellFormed = true) (deaf : s.deaf = true) : exec i s = .next s := by
  have fits : p.length ≤ Config.maxPayload := length_le_of_wellFormed hi hw
  rw [exec_request hi hw, requestStep, if_pos fits, if_pos deaf]

/-- Settles O3: a part that takes no byte stands either way; from HUNT the frame reaches the judgement with a right check, and that is
the request's completion. -/
theorem frameBytesActAsTheirRequestRow : Obligations.FrameBytesActAsTheirRequestRow := by
  intro i k q p s hi hw receives
  cases hearing : s.deaf with
  | true => rw [feed_deaf hearing, exec_request_deaf hi hw hearing]
  | false =>
    have hunting : s.receiver = .hunt := receives.resolve_left (by simp [hearing])
    rw [feed_frameBytes hearing hunting (length_le_of_wellFormed hi hw), State.judge_request rfl,
      exec_request_of_hearing hi hw hearing]

end Sys2Proof.Machine
end

section
/-!
The replies to executed requests (R156, R167): what the handler of each kind can answer, said once (`Answers`).
-/
namespace Sys2Proof.Machine

/-- What the handler of a request of kind `k` can answer: a refusal, which leaves the state and carries the status alone (R167); OK;
or, for STORE_PROGRAM, ACCEPTED (R156). -/
inductive Answers (k : RequestKind) (s : State) : State × Reply → Prop
  | refused {why : Status} (h : why ≠ .accepted) : Answers k s (refuse s why)
  | ok (t : State) (body : List Byte) : Answers k s (accept t body)
  | accepted (t : State) (body : List Byte) (h : k = .storeProgram) : Answers k s (t, { status := .accepted, body := body })

namespace Answers

variable {k : RequestKind} {s : State}

/-- A check with a refusal and what follows it. -/
theorem ite {c : Prop} [Decidable c] {x y : State × Reply} (hx : Answers k s x) (hy : Answers k s y) :
    Answers k s (if c then x else y) := by
  split
  · exact hx
  · exact hy

/-- A reply with a status other than OK and ACCEPTED is a refusal (R167). -/
theorem unchanged {x : State × Reply} (h : Answers k s x) (ok : x.2.status ≠ .ok) (accepted : x.2.status ≠ .accepted) :
    x.1 = s ∧ x.2.body = [] := by
  cases h with
  | refused => exact ⟨rfl, rfl⟩
  | ok => exact absurd rfl ok
  | accepted => exact absurd rfl accepted

/-- ACCEPTED answers STORE_PROGRAM alone (R156). -/
theorem storeProgram_of_accepted {x : State × Reply} (h : Answers k s x) (accepted : x.2.status = .accepted) :
    k = .storeProgram := by
  cases h with
  | refused h => exact absurd accepted h
  | ok => cases accepted
  | accepted _ _ h => exact h

end Answers

section Handlers

variable (s : State)

/-! ## The part and its link -/

theorem handleHello_answers : ∀ p, Answers .hello s (handleHello p s)
  | [] => .ok _ _
  | _ :: _ => .refused nofun

theorem handleStatus_answers : ∀ p, Answers .status s (handleStatus p s)
  | [] => .ok _ _
  | _ :: _ => .refused nofun

theorem handleFetch_answers (p : List Byte) : Answers .fetch s (handleFetch p s) := by
  unfold handleFetch
  split
  · split
    · exact .ok _ _
    · exact .refused nofun
  · exact .refused nofun

theorem handleRestart_answers : ∀ p, Answers .restart s (handleRestart p s)
  | [] => .ite (.refused nofun) (.ok _ _)
  | _ :: _ => .refused nofun

/-! ## Profiles -/

theorem handleSetProfile_answers (p : List Byte) : Answers .setProfile s (handleSetProfile p s) := by
  unfold handleSetProfile
  split
  · split
    · exact .ite (.refused nofun) (.ite (.ok _ _) (.ok _ _))
    · exact .refused nofun
  · exact .refused nofun

theorem handleSetCeiling_answers (p : List Byte) : Answers .setCeiling s (handleSetCeiling p s) := by
  unfold handleSetCeiling
  split
  · split
    · exact .ite (.ok _ _) (.ok _ _)
    · exact .refused nofun
  · exact .refused nofun

/-! ## Curves and channels -/

theorem handleCurveWrite_answers (p : List Byte) : Answers .curveWrite s (handleCurveWrite p s) := by
  unfold handleCurveWrite
  split
  · refine .ite (.refused nofun) ?_
    split
    · exact .refused nofun
    · exact .ite (.refused nofun) (.ite (.refused nofun) (.ite (.refused nofun) (.ok _ _)))
  · exact .refused nofun

theorem handleCurveRead_answers (p : List Byte) : Answers .curveRead s (handleCurveRead p s) := by
  unfold handleCurveRead
  split
  · split
    · exact .ok _ _
    · exact .refused nofun
  · exact .refused nofun

theorem handleBind_answers (p : List Byte) : Answers .bind s (handleBind p s) := by
  unfold handleBind
  split
  · split
    · exact .ite (.refused nofun) (.ok _ _)
    · exact .refused nofun
  · exact .refused nofun

theorem handleTrimSet_answers (p : List Byte) : Answers .trimSet s (handleTrimSet p s) := by
  unfold handleTrimSet
  split
  · split
    · exact .ok _ _
    · exact .refused nofun
  · exact .refused nofun

theorem handleTrimSource_answers (p : List Byte) : Answers .trimSource s (handleTrimSource p s) := by
  unfold handleTrimSource
  split
  · split
    · exact .ok _ _
    · exact .refused nofun
  · exact .refused nofun

theorem handleChannelRead_answers (p : List Byte) : Answers .channelRead s (handleChannelRead p s) := by
  unfold handleChannelRead
  split
  · split
    · exact .ok _ _
    · exact .refused nofun
  · exact .refused nofun

theorem handleSetLevel_answers (p : List Byte) : Answers .setLevel s (handleSetLevel p s) := by
  unfold handleSetLevel
  split
  · split
    · exact .ok _ _
    · exact .refused nofun
  · exact .refused nofun

/-! ## Cues and instances -/

theorem handleCueLoad_answers (p : List Byte) : Answers .cueLoad s (handleCueLoad p s) := by
  unfold handleCueLoad
  split
  · refine .ite (.refused nofun) (.ite (.refused nofun) ?_)
    split
    · exact .ite (.refused nofun) (.ok _ _)
    · exact .refused nofun
  · exact .refused nofun

theorem handleCueRead_answers (p : List Byte) : Answers .cueRead s (handleCueRead p s) := by
  unfold handleCueRead
  split
  · split
    · exact .refused nofun
    · split
      · exact .refused nofun
      · exact .ok _ _
  · exact .refused nofun

theorem handleCueClear_answers (p : List Byte) : Answers .cueClear s (handleCueClear p s) := by
  unfold handleCueClear
  split
  · split
    · exact .refused nofun
    · exact .ite (.refused nofun) (.ok _ _)
  · exact .refused nofun

/-- A start is never refused with ACCEPTED (R39). -/
theorem State.startRefusal_ne_accepted (c : CueIdx) : s.startRefusal c ≠ some .accepted := by
  unfold State.startRefusal
  split
  · nofun
  · split
    · nofun
    · split <;> nofun

theorem cueGo_answers (c : CueIdx) : Answers .cueGo s (cueGo c s) := by
  unfold cueGo
  split
  · exact .ok _ _
  · rename_i refusal
    exact .refused fun h => s.startRefusal_ne_accepted c (h ▸ refusal)
  · exact .refused nofun

theorem handleCueGo_answers (p : List Byte) : Answers .cueGo s (handleCueGo p s) := by
  unfold handleCueGo
  split
  · split
    · exact .refused nofun
    · exact .ite (.refused nofun) (cueGo_answers s _)
  · exact .refused nofun

theorem handleCueArm_answers (p : List Byte) : Answers .cueArm s (handleCueArm p s) := by
  unfold handleCueArm
  split
  · split
    · exact .ite (.refused nofun) (.ok _ _)
    · exact .refused nofun
  · exact .refused nofun

theorem handleCueDisarm_answers : ∀ p, Answers .cueDisarm s (handleCueDisarm p s)
  | [] => .ok _ _
  | _ :: _ => .refused nofun

theorem handleCueStop_answers (p : List Byte) : Answers .cueStop s (handleCueStop p s) := by
  unfold handleCueStop
  split
  · split
    · exact .refused nofun
    · exact .ok _ _
  · exact .refused nofun

theorem handleCueStopAll_answers : ∀ p, Answers .cueStopAll s (handleCueStopAll p s)
  | [] => .ok _ _
  | _ :: _ => .refused nofun

theorem handleActiveRead_answers : ∀ p, Answers .activeRead s (handleActiveRead p s)
  | [] => .ok _ _
  | _ :: _ => .refused nofun

/-! ## The retained store -/

theorem handleStoreStatus_answers : ∀ p, Answers .storeStatus s (handleStoreStatus p s)
  | [] => .ok _ _
  | _ :: _ => .refused nofun

theorem storeProgram_answers (k : RecordKind) (g : GenIdx) (fade : Nat) (profile : RunProfile) :
    Answers .storeProgram s (storeProgram k g fade profile s) :=
  .ite (.refused nofun) (.ite (.refused nofun) (.ite (.refused nofun) (.accepted _ _ rfl)))

theorem handleStoreProgram_answers (p : List Byte) : Answers .storeProgram s (handleStoreProgram p s) := by
  unfold handleStoreProgram
  split
  · split
    · exact .refused nofun
    · exact storeProgram_answers s _ _ _ _
    · exact .refused nofun
  · split
    · split
      · exact storeProgram_answers s _ _ _ _
      · exact .refused nofun
    · exact .refused nofun
  · exact .refused nofun

theorem storeLoadCurves_answers : Answers .storeLoad s (storeLoadCurves s) :=
  .ite (.refused nofun) (.ite (.refused nofun) (.ok _ _))

theorem storeLoadTrims_answers : Answers .storeLoad s (storeLoadTrims s) := .ite (.refused nofun) (.ok _ _)

theorem storeLoadLabel_answers : Answers .storeLoad s (storeLoadLabel s) := .ite (.refused nofun) (.ok _ _)

theorem storeLoadStartup_answers : Answers .storeLoad s (storeLoadStartup s) := by
  refine .ite (.refused nofun) (.ite (.refused nofun) ?_)
  split
  · exact .refused nofun
  · exact .ite (.refused nofun) (.ite (.refused nofun) (.ok _ _))

theorem refuseStoreLoad_answers : ∀ p, Answers .storeLoad s (refuseStoreLoad p s)
  | [] => .refused nofun
  | [_] => .refused nofun
  | _ :: _ :: _ => .refused nofun

theorem handleStoreLoad_answers (p : List Byte) : Answers .storeLoad s (handleStoreLoad p s) := by
  unfold handleStoreLoad
  split
  · split
    · exact storeLoadCurves_answers s
    · exact storeLoadTrims_answers s
    · exact storeLoadStartup_answers s
    · exact storeLoadLabel_answers s
    · exact refuseStoreLoad_answers s _
  · exact refuseStoreLoad_answers s _

theorem handleLabelSet_answers (p : List Byte) : Answers .labelSet s (handleLabelSet p s) := by
  unfold handleLabelSet
  split
  · exact .ok _ _
  · exact .refused nofun

/-! ## Every request -/

theorem handlerOf_answers (k : RequestKind) (p : List Byte) : Answers k s (handlerOf k p s) := by
  cases k with
  | hello => exact handleHello_answers s p
  | status => exact handleStatus_answers s p
  | fetch => exact handleFetch_answers s p
  | restart => exact handleRestart_answers s p
  | setProfile => exact handleSetProfile_answers s p
  | setCeiling => exact handleSetCeiling_answers s p
  | curveWrite => exact handleCurveWrite_answers s p
  | curveRead => exact handleCurveRead_answers s p
  | bind => exact handleBind_answers s p
  | trimSet => exact handleTrimSet_answers s p
  | trimSource => exact handleTrimSource_answers s p
  | channelRead => exact handleChannelRead_answers s p
  | setLevel => exact handleSetLevel_answers s p
  | cueLoad => exact handleCueLoad_answers s p
  | cueRead => exact handleCueRead_answers s p
  | cueClear => exact handleCueClear_answers s p
  | cueGo => exact handleCueGo_answers s p
  | cueArm => exact handleCueArm_answers s p
  | cueDisarm => exact handleCueDisarm_answers s p
  | cueStop => exact handleCueStop_answers s p
  | cueStopAll => exact handleCueStopAll_answers s p
  | activeRead => exact handleActiveRead_answers s p
  | storeStatus => exact handleStoreStatus_answers s p
  | storeProgram => exact handleStoreProgram_answers s p
  | storeLoad => exact handleStoreLoad_answers s p
  | labelSet => exact handleLabelSet_answers s p

end Handlers

/-- Settles O8: the state and the reply are the handler's, and `handlerOf_answers` says what they can be. -/
theorem refusedRequestChangesNothing : Obligations.RefusedRequestChangesNothing := by
  intro i k q p s hi hw executes
  have answer : Answers k s (handlerOf k p s) := handlerOf_answers s k p
  exact ⟨_, _, exec_executes hi hw executes, answer.unchanged, answer.storeProgram_of_accepted⟩

end Sys2Proof.Machine
end

section
/-!
The frame check (R151): its step on one byte, and that one changed byte changes the check.
-/
namespace Sys2Proof.Machine

/-! ## One shift of the check register -/

/-- The shift in the words of R151: the bit shifted out is bit 15. -/
theorem crcShift_eq (r : Half) : crcShift r = if r.getLsbD 15 then (r <<< 1) ^^^ 0x1021 else r <<< 1 := rfl

/-- The bit shifted out comes back as the low bit. -/
theorem crcShift_getLsbD_zero (r : Half) : (crcShift r).getLsbD 0 = r.getLsbD 15 := by
  rw [crcShift_eq]
  cases r.getLsbD 15 <;> simp

/-- No shift loses anything: the low bit tells which form was taken, and the rest is the register but for bit 15. -/
theorem crcShift_injective : Function.Injective crcShift := by
  intro a b same
  have top : a.getLsbD 15 = b.getLsbD 15 := by rw [← crcShift_getLsbD_zero, same, crcShift_getLsbD_zero]
  have shifted : a <<< 1 = b <<< 1 := by
    rw [crcShift_eq, crcShift_eq, top] at same
    split at same
    · exact (BitVec.xor_left_inj _).1 same
    · exact same
  apply BitVec.eq_of_getLsbD_eq
  intro i hi
  rcases Nat.lt_succ_iff_lt_or_eq.1 hi with low | rfl
  · have bit := congrArg (fun x : Half => x.getLsbD (i + 1)) shifted
    simpa [BitVec.getLsbD_shiftLeft, Nat.add_lt_add_right low 1, hi] using bit
  · exact top

/-! ## One covered byte -/

/-- A byte combined into the high eight bits of the register (R151 step 2). -/
theorem append_zero_eq_shiftLeft (b : Byte) : (b ++ (0 : Byte) : BitVec 16) = b.setWidth 16 <<< 8 :=
  calc (b ++ (0 : Byte) : BitVec 16)
    _ = b.shiftLeftZeroExtend 8 := BitVec.or_zero
    _ = b.setWidth 16 <<< 8 := BitVec.shiftLeftZeroExtend_eq

theorem crcByte_eq_iterate (r : Half) (b : Byte) : crcByte r b = crcShift^[8] (r ^^^ (b.setWidth 16 <<< 8)) := by
  rw [crcByte, append_zero_eq_shiftLeft]
  rfl

/-- Different registers stay different over the same byte. -/
theorem crcByte_injective_left (b : Byte) : Function.Injective fun r => crcByte r b := by
  intro r r' same
  simp only [crcByte_eq_iterate] at same
  exact (BitVec.xor_left_inj _).1 (crcShift_injective.iterate 8 same)

/-- Different bytes make one register different. -/
theorem crcByte_injective_right (r : Half) : Function.Injective (crcByte r) := by
  intro b b' same
  simp only [crcByte_eq_iterate, ← append_zero_eq_shiftLeft] at same
  exact (BitVec.append_left_inj 0).1 ((BitVec.xor_right_inj r).1 (crcShift_injective.iterate 8 same))

/-! ## Runs of bytes -/

theorem crc_append_singleton (bytes : List Byte) (b : Byte) : crc (bytes ++ [b]) = crcByte (crc bytes) b := by
  rw [crc, List.foldl_append]
  rfl

/-- Different registers stay different over the same run of bytes. -/
theorem foldl_crcByte_injective (bytes : List Byte) : Function.Injective fun r => bytes.foldl crcByte r := by
  induction bytes with
  | nil => exact Function.injective_id
  | cons b rest ih => exact ih.comp (crcByte_injective_left b)

/-- Two runs that differ in one byte have different checks. -/
theorem crc_ne_of_byte_ne (before after : List Byte) {b b' : Byte} (differ : b ≠ b') :
    crc (before ++ b :: after) ≠ crc (before ++ b' :: after) := by
  simp only [crc, List.foldl_append, List.foldl_cons]
  exact fun same => differ (crcByte_injective_right _ (foldl_crcByte_injective after same))

/-- The two rows of R151's table, computed step by step. -/
theorem crc_table :
    crc [0x01, 0x01, 0x00] = 0xC89D ∧ crc [0x31, 0x32, 0x33, 0x34, 0x35, 0x36, 0x37, 0x38, 0x39] = 0x29B1 := by
  simp [crc, crcByte, crcShift_eq]

/-- Settles O60: the step is `crcByte_eq_iterate`, the change of one byte `crc_ne_of_byte_ne`; the rest is how the frame is laid out and
the table of R151. -/
theorem frameCheckFollowsR151 : Obligations.FrameCheckFollowsR151 := by
  refine ⟨rfl, fun bytes b => ?_, fun _ _ _ => rfl, fun _ => rfl, fun before after _ _ => crc_ne_of_byte_ne before after, crc_table⟩
  rw [crc_append_singleton, crcByte_eq_iterate]
  rfl

end Sys2Proof.Machine
end

section
/-!
The form checks of executed requests with a Fixed payload (R166, R168), every row and STORE_LOAD_NO_RECORD_KIND (R186) among them: the
handlers' refusals, carried to the rows.
-/
namespace Sys2Proof.Machine

/-- A row whose handler refuses replies with the status alone, and the state stands outside the Link Port (R167). -/
theorem exec_refused {i : Instr} {k : RequestKind} {q : Byte} {p : List Byte} (hi : requestOf i = some (k, q, p))
    (hw : i.wellFormed = true) {s : State} (executes : Executes s k q p) {why : Status} (refused : handlerOf k p s = refuse s why) :
    exec i s = .next (answered s k q p ⟨why, []⟩) := by
  rw [exec_executes hi hw executes, refused]
  rfl

/-- Settles O9: each of the two checks is the handler's own, `handlerOf_badLength` and `handlerOf_outOfRange`. -/
theorem lengthThenRange : Obligations.LengthThenRange := by
  intro i k q p s hi hw executes n fixed
  constructor
  · intro length
    exact exec_refused hi hw executes (handlerOf_badLength fixed length s)
  · intro _ range
    exact exec_refused hi hw executes (handlerOf_outOfRange range s)

end Sys2Proof.Machine
end

section
/-!
The queue of commands (logs 4 and 16): a step takes the command at its front, and no command reads or changes what waits behind it.
-/
namespace Sys2Proof.Machine

/-- Settles O1: both clauses are the two cases of `step`'s queue. -/
theorem stepRunsTheFrontCommand : Obligations.StepRunsTheFrontCommand := by
  refine ⟨fun _ _ _ => rfl, fun s empty => ?_⟩
  simp only [step, empty]

/-! ## Operations that ignore the waiting commands -/

/-- The state with other commands waiting. -/
def State.withPending (s : State) (l : List Instr) : State := { s with pending := l }

section Fields

variable (s : State) (l : List Instr)

@[simp] theorem State.withPending_inFlight : (s.withPending l).inFlight = s.inFlight := rfl
@[simp] theorem State.withPending_phase : (s.withPending l).phase = s.phase := rfl
@[simp] theorem State.withPending_receiver : (s.withPending l).receiver = s.receiver := rfl
@[simp] theorem State.withPending_breakDetector : (s.withPending l).breakDetector = s.breakDetector := rfl
@[simp] theorem State.withPending_sending : (s.withPending l).sending = s.sending := rfl
@[simp] theorem State.withPending_repeatOf (q : Byte) (check : Half) : (s.withPending l).repeatOf q check = s.repeatOf q check := rfl

end Fields

/-- An operation acts the same whatever commands wait, and leaves them waiting. -/
def IgnoresQueue (f : State → State) : Prop := ∀ s l, f (s.withPending l) = (f s).withPending l

namespace IgnoresQueue

theorem nothing : IgnoresQueue fun s => s := fun _ _ => rfl

theorem comp {f g : State → State} (hf : IgnoresQueue f) (hg : IgnoresQueue g) : IgnoresQueue fun s => f (g s) := fun s l => by
  simp only [hg s l, hf (g s) l]

theorem ite {p : State → Prop} [DecidablePred p] {f g : State → State} (hp : ∀ s l, p (s.withPending l) ↔ p s)
    (hf : IgnoresQueue f) (hg : IgnoresQueue g) : IgnoresQueue fun s => if p s then f s else g s := fun s l => by
  by_cases h : p s
  · simp only [hp, h, if_true, hf s l]
  · simp only [hp, h, if_false, hg s l]

/-- The waiting commands are aside. -/
theorem of_setAside {f : State → State} (h : ∀ s a, f (s.setAside a) = (f s).setAside a) : IgnoresQueue f := fun s l => by
  have aside := State.aside_eq h s
  unfold State.withPending
  rw [State.withPending_eq_setAside, State.withPending_eq_setAside, h, aside]

end IgnoresQueue

/-- A handler decides and carries out its request the same whatever commands wait: they are aside, and OE stands. -/
theorem ActsAside.withPending {run : Handler} (h : ActsAside run) (p : List Byte) (s : State) (l : List Instr) :
    run p (s.withPending l) = ((run p s).1.withPending l, (run p s).2) := by
  have aside : (run p s).1.aside = s.aside := by
    have same := h p s s.aside rfl
    rw [State.setAside_aside] at same
    exact congrArg (fun r : State × Reply => r.1.aside) same
  unfold State.withPending
  rw [State.withPending_eq_setAside, State.withPending_eq_setAside, h p s _ rfl, aside]

/-! ## The Link Port (R152, R155, R158 to R161) -/

theorem State.toHunt_ignoresQueue : IgnoresQueue State.toHunt := fun _ _ => rfl

theorem State.offer_ignoresQueue (f : Frame) : IgnoresQueue fun s => s.offer f := fun s l => by
  rcases sends : s.sending with _ | x <;> rcases waits : s.waiting with _ | g <;>
    simp only [State.offer, State.withPending, sends, waits]

theorem State.toHunt_offer_ignoresQueue (f : Frame) : IgnoresQueue fun s => s.toHunt.offer f :=
  (State.offer_ignoresQueue f).comp State.toHunt_ignoresQueue

theorem State.answer_ignoresQueue (k : RequestKind) (q : Byte) (p : List Byte) (r : Reply) :
    IgnoresQueue fun s => s.answer k q p r := fun s l =>
  State.offer_ignoresQueue (replyFrame q k r)
    { s with lastReply := some { seq := q, check := frameCheck q k.code p, reply := replyFrame q k r } } l

section Requests

variable {run : Handler} (acts : ActsAside run) (k : RequestKind) (q : Byte) (p : List Byte)
include acts

theorem State.execute_ignoresQueue : IgnoresQueue fun s => s.execute k run q p := fun s l => by
  simp only [State.execute, acts.withPending]
  exact State.answer_ignoresQueue k q p _ _ l

theorem State.admission_ignoresQueue : IgnoresQueue fun s => s.admission k run q p := fun s l => by
  have executed : IgnoresQueue fun s => if s.sending.isSome then s.offer (rejectFrame q .overrun) else s.execute k run q p :=
    .ite (fun _ _ => Iff.rfl) (State.offer_ignoresQueue _) (State.execute_ignoresQueue acts k q p)
  simp only [State.admission, State.withPending_repeatOf]
  cases s.repeatOf q (frameCheck q k.code p) with
  | some stored => exact State.offer_ignoresQueue stored s l
  | none => exact executed s l

theorem State.takeRequest_ignoresQueue : IgnoresQueue fun s => s.takeRequest k run q p :=
  .ite (fun _ _ => Iff.rfl) (State.toHunt_offer_ignoresQueue _)
    ((State.admission_ignoresQueue acts k q p).comp State.toHunt_ignoresQueue)

end Requests

theorem State.judge_ignoresQueue (q kind : Byte) (p : List Byte) (check : Half) : IgnoresQueue fun s => s.judge q kind p check := by
  refine .ite (fun _ _ => Iff.rfl) (State.toHunt_offer_ignoresQueue _)
    (.ite (fun _ _ => Iff.rfl) (State.toHunt_offer_ignoresQueue _) ?_)
  cases requestKind? kind with
  | none => exact State.toHunt_offer_ignoresQueue _
  | some k => exact (State.admission_ignoresQueue (handlerOf_actsAside k) k q p).comp State.toHunt_ignoresQueue

theorem State.takeByte_ignoresQueue (b : Byte) : IgnoresQueue fun s => s.takeByte b := fun s l => by
  simp only [State.takeByte, State.withPending_receiver]
  cases s.receiver with
  | headerSeq | headerKind | checkHigh => rfl
  | hunt | payload =>
    dsimp only
    split <;> rfl
  | headerLength q kind =>
    dsimp only
    split
    · exact State.toHunt_offer_ignoresQueue _ s l
    · split <;> rfl
  | checkLow q kind p high => exact State.judge_ignoresQueue q kind p _ s l

theorem State.endSending_ignoresQueue (x : Sending) : IgnoresQueue fun s => s.endSending x :=
  .ite (fun _ _ => Iff.rfl) (fun _ _ => rfl) (fun _ _ => rfl)

/-! ## The steps of the commands -/

/-- A step has the same outcome whatever commands wait, leaves them waiting, and does not fault. -/
def StepIgnoresQueue (f : State → Host.Outcome State Fault Refusal) : Prop :=
  ∀ s l,
    match f s with
    | .next t => f (s.withPending l) = .next (t.withPending l)
    | .fault _ => False
    | .refused r => f (s.withPending l) = .refused r

namespace StepIgnoresQueue

theorem of_next {f : State → State} (h : IgnoresQueue f) : StepIgnoresQueue fun s => .next (f s) := fun s l =>
  congrArg Host.Outcome.next (h s l)

theorem of_refused (r : Refusal) : StepIgnoresQueue fun _ => .refused r := fun _ _ => rfl

end StepIgnoresQueue

theorem requestStep_ignoresQueue {run : Handler} (acts : ActsAside run) (k : RequestKind) (q : Byte) (p : List Byte) :
    StepIgnoresQueue (requestStep k run q p) := by
  unfold requestStep
  by_cases fits : p.length ≤ Config.maxPayload
  · simp only [fits, if_true]
    exact .of_next (.ite (fun _ _ => Iff.rfl) .nothing (State.takeRequest_ignoresQueue acts k q p))
  · simp only [fits, if_false]
    exact .of_refused _

/-- The rows of STORE_LOAD with a kind: a load acts the same whatever stands aside. -/
theorem storeLoadRow_ignoresQueue {load : State → State × Reply}
    (h : ∀ (s : State) (a : Aside), load (s.setAside a) = ((load s).1.setAside a, (load s).2)) (q : Byte) (p : List Byte) :
    StepIgnoresQueue (requestStep .storeLoad (fun _ => load) q p) :=
  requestStep_ignoresQueue (fun _ s a _ => h s a) .storeLoad q p

theorem execStoreLoadNoRecordKind_ignoresQueue (q : Byte) (p : List Byte) : StepIgnoresQueue (execStoreLoadNoRecordKind q p) := by
  have refuses := requestStep_ignoresQueue refuseStoreLoad_actsAside .storeLoad q p
  unfold execStoreLoadNoRecordKind
  split
  · split
    · exact .of_refused _
    · exact refuses
  · exact refuses

theorem execProgramCompletion_ignoresQueue (o : ReadBack) : StepIgnoresQueue (execProgramCompletion o) := by
  refine .of_next (.ite (fun _ _ => Iff.rfl) .nothing fun s l => ?_)
  simp only [State.withPending_inFlight]
  cases s.inFlight with
  | none => rfl
  | some p => exact IgnoresQueue.of_setAside (f := fun s => s.endProgram p o) (fun s a => s.endProgram_setAside a p o) s l

theorem execResetCondition_ignoresQueue (cause : HoldCause) : StepIgnoresQueue (execResetCondition cause) := by
  refine .of_next fun s l => ?_
  rw [IgnoresQueue.of_setAside State.cutProgram_setAside s l]
  rfl

theorem execResetBase_ignoresQueue (rate1 rate0 : PinLevel) : StepIgnoresQueue (execResetBase rate1 rate0) := by
  refine .of_next fun s l => ?_
  simp only [State.withPending_phase]
  cases s.phase <;> rfl

theorem execInterByteTimeout_ignoresQueue : StepIgnoresQueue execInterByteTimeout := by
  refine .of_next (.ite (fun _ _ => Iff.rfl) .nothing fun s l => ?_)
  exact State.offer_ignoresQueue (rejectFrame s.receiver.sequence .truncated) (s.advanceTo s.timeoutAt).toHunt l

theorem execTransmissionEnd_ignoresQueue : StepIgnoresQueue execTransmissionEnd := by
  refine .of_next (.ite (fun _ _ => Iff.rfl) .nothing fun s l => ?_)
  simp only [State.withPending_sending]
  cases s.sending with
  | none => rfl
  | some x => exact State.endSending_ignoresQueue x s l

theorem execLinkReset_ignoresQueue : StepIgnoresQueue execLinkReset := by
  refine .of_next (.ite (fun _ _ => Iff.rfl) .nothing fun s l => ?_)
  simp only [State.withPending_breakDetector]
  cases s.breakDetector <;> rfl

theorem execRxdFalls_ignoresQueue : StepIgnoresQueue execRxdFalls := by
  refine .of_next (.ite (fun _ _ => Iff.rfl) (fun _ _ => rfl) fun s l => ?_)
  simp only [State.withPending_breakDetector]
  cases s.breakDetector <;> rfl

/-- Every command: a request row by its handler, an event by what it does. -/
theorem exec_ignoresQueue (c : Instr) : StepIgnoresQueue (exec c) := by
  have request (k : RequestKind) (q : Byte) (p : List Byte) : StepIgnoresQueue (requestStep k (handlerOf k) q p) :=
    requestStep_ignoresQueue (handlerOf_actsAside k) k q p
  cases c with
  | hello q p | status q p | fetch q p | restart q p | setProfile q p | setCeiling q p | curveWrite q p | curveRead q p | bind q p
  | trimSet q p | trimSource q p | channelRead q p | setLevel q p | cueLoad q p | cueRead q p | cueClear q p | cueGo q p
  | cueArm q p | cueDisarm q p | cueStop q p | cueStopAll q p | activeRead q p | storeStatus q p | storeProgram q p
  | labelSet q p => exact request _ q p
  | storeLoadCurves q => exact storeLoadRow_ignoresQueue storeLoadCurves_setAside q [RecordKind.curves.code]
  | storeLoadTrims q => exact storeLoadRow_ignoresQueue storeLoadTrims_setAside q [RecordKind.trims.code]
  | storeLoadLabel q => exact storeLoadRow_ignoresQueue storeLoadLabel_setAside q [RecordKind.label.code]
  | storeLoadStartup q => exact storeLoadRow_ignoresQueue storeLoadStartup_setAside q [RecordKind.startup.code]
  | storeLoadNoRecordKind q p => exact execStoreLoadNoRecordKind_ignoresQueue q p
  | fadeClockExpiry => exact .of_next (.ite (fun _ _ => Iff.rfl) .nothing (.of_setAside State.expiry_setAside))
  | goFallingEdge => exact .of_next (.ite (fun _ _ => Iff.rfl) (.of_setAside State.takeEdge_setAside) .nothing)
  | programCompletion o => exact execProgramCompletion_ignoresQueue o
  | loadCompletion => exact .of_next (.ite (fun _ _ => Iff.rfl) (.of_setAside State.load_setAside) .nothing)
  | resetCondition cause => exact execResetCondition_ignoresQueue cause
  | resetBase rate1 rate0 => exact execResetBase_ignoresQueue rate1 rate0
  | oeChange level => exact .of_next fun _ _ => rfl
  | byteReceived b => exact .of_next (.ite (fun _ _ => Iff.rfl) .nothing (State.takeByte_ignoresQueue b))
  | framingError => exact .of_next .nothing
  | interByteTimeout => exact execInterByteTimeout_ignoresQueue
  | transmissionEnd => exact execTransmissionEnd_ignoresQueue
  | linkReset => exact execLinkReset_ignoresQueue
  | rxdFalls => exact execRxdFalls_ignoresQueue
  | rxdRises => exact .of_next (.ite (fun _ _ => Iff.rfl) (fun _ _ => rfl) (fun _ _ => rfl))

/-- Settles O2: the queue is no field that a handler or an event reads or writes, `exec_ignoresQueue`. -/
theorem waitingCommandsAreNotRead : Obligations.WaitingCommandsAreNotRead := fun c s l => exec_ignoresQueue c s l

end Sys2Proof.Machine
end
